-- ==== Sys2Proof/Word.lean ====
section
/-! DEFINITION. The words of the model: bytes of the command port and stamps of track time (00_scope.md, Conventions). -/

namespace Sys2Proof

/-- One byte of the command port or of the profile image. -/
abbrev Byte := BitVec 8

/-- A time stamp: a value of track time, an unsigned 32-bit count of units of 0.1 ms (R74, R75). -/
abbrev Stamp := BitVec 32

end Sys2Proof
end

