-- ==== Sys2Proof/Syntax.lean ====
section
/-! DEFINITION. The commands of the block: one constructor per row of spec/opcode_table.json, with the row's operands. -/

namespace Sys2Proof

/-- The two block links (00_scope.md, Lanes, slots and links). -/
inductive LinkId where
  | a
  | b
  deriving DecidableEq, Repr

/-- The two moments at which an armed soft reset may act, whichever is earlier (R184). -/
inductive ResetMoment where
  | resultByteEnd
  | selectRise
  deriving DecidableEq, Repr

/-- The rows of spec/opcode_table.json, in the table's order. Byte operands are the argument bytes of Table 12-2. -/
inductive Instr where
  | readStatus
  | resetEnable
  | softReset
  /-- The soft reset acts, at the given moment (R184). -/
  | softResetAction (moment : ResetMoment)
  | fullReset
  | takeNotice
  | noticeDone (ceiling : Byte)
  | clearNotice (source : Byte)
  | setNoticeLevel (source level : Byte)
  | readNotices
  | readSetting (key : Byte)
  | writeSetting (key : Byte) (value : BitVec 16)
  /-- `wp` is the level of PROFILE_WP at the moment the command is taken, true for high (R190, log 5). -/
  | saveProfile (wp : Bool)
  | profileSaveComplete
  | loadProfile
  | openHeat (number : BitVec 16) (policy : Byte)
  | closeHeat
  | enterLane (lane : Byte) (bib : BitVec 16)
  | vacateLane (lane : Byte)
  | withdrawLane (lane : Byte)
  | findBib (bib : BitVec 16)
  | readLane (lane : Byte)
  | readRoster (start : Byte)
  | streamRecordCopy
  | readHeat
  | readAttempt
  | callMarks
  | callSet
  | standUp
  | recall
  | imposeCharge (lane effect : Byte)
  | rescindCharge (lane : Byte)
  | rescindFieldWarning
  | readLink (link clear : Byte)
  | transactionStart
  /-- `code` is the code byte received (R179). -/
  | unknownCommandCode (code : Byte)
  | transactionEnd
  | transactionDiscard
  | gunEdge
  | gunRelease
  | gunAcceptance
  | lockoutEnd
  | closeExpiry
  | deadlineExpiry
  | pulseEnd
  /-- `bits` are the last 16 bits received, the first of them the most significant (R53). -/
  | searchWordFound (link : LinkId) (bits : BitVec 16)
  /-- `bits` are the 16 bits that end at the frame position; `silent` says that the line made no transition in the frame's
  256 bit periods (R54, R55, R56, log 8). -/
  | framePosition (link : LinkId) (silent : Bool) (bits : BitVec 16)
  | linkSilence (link : LinkId)
  /-- `slots` are the 40 bits of lane slots 1..6, the bit sent first the most significant (Tables 3-2 and 12-1). -/
  | frameArrival (link : LinkId) (slots : Vector (BitVec 40) 6)
  | lineTransition (link : LinkId)
  /-- `selectHigh` is the level of select when the reset ends (R185). -/
  | fullResetEnd (selectHigh : Bool)
  deriving DecidableEq, Repr

end Sys2Proof
end

