-- ==== Sys2Proof/Decode.lean ====
section
/-! DEFINITION. The table's words (none of its rows has bits), and the command port's own bytes: the command codes and
argument bytes of Table 12-2, encoded and decoded. -/

namespace Sys2Proof

/-- The command that a word of the table's bits spells. No row of spec/opcode_table.json gives bits, so no word spells one. -/
def decodeTableWord (_nbits _w : Nat) : Option Instr := none

/-- The command code of a port command (Table 12-2); none for a row that is not one of the thirty commands. -/
def Instr.code : Instr → Option Byte
  | .readStatus => some 0x01
  | .resetEnable => some 0x02
  | .softReset => some 0x03
  | .takeNotice => some 0x10
  | .noticeDone _ => some 0x11
  | .clearNotice _ => some 0x12
  | .setNoticeLevel _ _ => some 0x13
  | .readNotices => some 0x14
  | .readSetting _ => some 0x20
  | .writeSetting _ _ => some 0x21
  | .saveProfile _ => some 0x22
  | .loadProfile => some 0x23
  | .openHeat _ _ => some 0x30
  | .closeHeat => some 0x31
  | .enterLane _ _ => some 0x32
  | .vacateLane _ => some 0x33
  | .withdrawLane _ => some 0x34
  | .findBib _ => some 0x35
  | .readLane _ => some 0x36
  | .readRoster _ => some 0x37
  | .readHeat => some 0x38
  | .readAttempt => some 0x39
  | .callMarks => some 0x40
  | .callSet => some 0x41
  | .standUp => some 0x42
  | .recall => some 0x43
  | .imposeCharge _ _ => some 0x50
  | .rescindCharge _ => some 0x51
  | .rescindFieldWarning => some 0x52
  | .readLink _ _ => some 0x60
  | .softResetAction _ => none
  | .fullReset => none
  | .profileSaveComplete => none
  | .streamRecordCopy => none
  | .transactionStart => none
  | .unknownCommandCode _ => none
  | .transactionEnd => none
  | .transactionDiscard => none
  | .gunEdge => none
  | .gunRelease => none
  | .gunAcceptance => none
  | .lockoutEnd => none
  | .closeExpiry => none
  | .deadlineExpiry => none
  | .pulseEnd => none
  | .searchWordFound _ _ => none
  | .framePosition _ _ _ => none
  | .linkSilence _ => none
  | .frameArrival _ _ => none
  | .lineTransition _ => none
  | .fullResetEnd _ => none

/-- The two bytes of a 16-bit argument, big-endian (12_formats_and_pins.md). -/
def twoBytes (w : BitVec 16) : List Byte := [w.extractLsb' 8 8, w.extractLsb' 0 8]

/-- The 16-bit value of two argument bytes, big-endian. -/
def ofTwoBytes (hi lo : Byte) : BitVec 16 := hi ++ lo

/-- The argument bytes of a port command, in the order of Table 12-2. -/
def Instr.argumentBytes : Instr → List Byte
  | .noticeDone c => [c]
  | .clearNotice x => [x]
  | .setNoticeLevel x l => [x, l]
  | .readSetting k => [k]
  | .writeSetting k v => k :: twoBytes v
  | .openHeat n p => twoBytes n ++ [p]
  | .enterLane l b => l :: twoBytes b
  | .vacateLane l => [l]
  | .withdrawLane l => [l]
  | .findBib b => twoBytes b
  | .readLane l => [l]
  | .readRoster l => [l]
  | .imposeCharge l e => [l, e]
  | .rescindCharge l => [l]
  | .readLink l c => [l, c]
  | _ => []

/-- How many argument bytes a command code calls for (Table 12-2); none for a code that names no command. -/
def argumentCount (code : Byte) : Option Nat :=
  if code = 0x01 ∨ code = 0x02 ∨ code = 0x03 then some 0
  else if code = 0x10 then some 0
  else if code = 0x11 ∨ code = 0x12 then some 1
  else if code = 0x13 then some 2
  else if code = 0x14 then some 0
  else if code = 0x20 then some 1
  else if code = 0x21 then some 3
  else if code = 0x22 ∨ code = 0x23 then some 0
  else if code = 0x30 then some 3
  else if code = 0x31 then some 0
  else if code = 0x32 then some 3
  else if code = 0x33 ∨ code = 0x34 then some 1
  else if code = 0x35 then some 2
  else if code = 0x36 ∨ code = 0x37 then some 1
  else if code = 0x38 ∨ code = 0x39 then some 0
  else if code = 0x40 ∨ code = 0x41 ∨ code = 0x42 ∨ code = 0x43 then some 0
  else if code = 0x50 then some 2
  else if code = 0x51 then some 1
  else if code = 0x52 then some 0
  else if code = 0x60 then some 2
  else none

/-- The bytes a host sends for a port command, the code first (R174, R176). -/
def encodeCommand (i : Instr) : Option (List Byte) := i.code.map (· :: i.argumentBytes)

/-- The port command that received bytes spell, with `wp` the level of PROFILE_WP (R176, Table 12-2). None for a code that
names no command (R179) and for a list that does not hold exactly its argument bytes. -/
def decodeCommand (wp : Bool) : List Byte → Option Instr
  | [] => none
  | code :: args =>
    match args with
    | [] =>
      if code = 0x01 then some .readStatus
      else if code = 0x02 then some .resetEnable
      else if code = 0x03 then some .softReset
      else if code = 0x10 then some .takeNotice
      else if code = 0x14 then some .readNotices
      else if code = 0x22 then some (.saveProfile wp)
      else if code = 0x23 then some .loadProfile
      else if code = 0x31 then some .closeHeat
      else if code = 0x38 then some .readHeat
      else if code = 0x39 then some .readAttempt
      else if code = 0x40 then some .callMarks
      else if code = 0x41 then some .callSet
      else if code = 0x42 then some .standUp
      else if code = 0x43 then some .recall
      else if code = 0x52 then some .rescindFieldWarning
      else none
    | [x] =>
      if code = 0x11 then some (.noticeDone x)
      else if code = 0x12 then some (.clearNotice x)
      else if code = 0x20 then some (.readSetting x)
      else if code = 0x33 then some (.vacateLane x)
      else if code = 0x34 then some (.withdrawLane x)
      else if code = 0x36 then some (.readLane x)
      else if code = 0x37 then some (.readRoster x)
      else if code = 0x51 then some (.rescindCharge x)
      else none
    | [x, y] =>
      if code = 0x13 then some (.setNoticeLevel x y)
      else if code = 0x35 then some (.findBib (ofTwoBytes x y))
      else if code = 0x50 then some (.imposeCharge x y)
      else if code = 0x60 then some (.readLink x y)
      else none
    | [x, y, z] =>
      if code = 0x21 then some (.writeSetting x (ofTwoBytes y z))
      else if code = 0x30 then some (.openHeat (ofTwoBytes x y) z)
      else if code = 0x32 then some (.enterLane x (ofTwoBytes y z))
      else none
    | _ => none

end Sys2Proof
end

