-- ==== Sys2Proof/Config.lean ====
section
/-! DEFINITION. What the part fixes, and the free values the manual leaves open. -/

namespace Sys2Proof

/-- FREE VALUE (log 10; R193, R195). Whether byte `i` of the profile had already been rewritten when a full reset cut a
save short, for the `k`-th free value that the run uses. Nothing constrains it. -/
opaque Config.saveByteWritten (k : Nat) (i : Nat) : Bool

/-- The alignment word of a link frame (R51). -/
def Config.alignmentWord : BitVec 16 := 0xC5A3

/-- Units from one frame position of a lock to the next (R59). -/
def Config.framePeriod : Nat := 5

/-- The least number of whole units from a frame stamp to the arrival of its frame, 240 bit periods later, which is about
4.7 units (R59). -/
def Config.frameArrivalDelay : Nat := 4

/-- Units without a line transition after which a locked link is silent (R56). -/
def Config.silenceLimit : Nat := 20

/-- Units within which a profile save completes (R190). -/
def Config.saveLimit : Nat := 400

/-- The largest drive force, and the largest level a lane may hold (R90, R98). -/
def Config.fullScale : Nat := 8190

/-- Samples in a block (R92). -/
def Config.blockLength : Nat := 40

/-- The bound of a saturated reaction time (R117). -/
def Config.rtLimit : Int := 9999

/-- The largest attempt number of a heat (R27, R29). -/
def Config.attemptLimit : Nat := 15

end Sys2Proof
end

