-- ==== Sys2Proof/Machine/Settings.lean ====
section
/-! DEFINITION. The settings table, the checks of link ranges, and the profile image with its CRC-16 (11, 12). -/

namespace Sys2Proof.Machine

/-- A lane, by its place in ascending lane order: index 0 is lane 1. -/
abbrev LaneNo := Fin 10

/-- The lane's number 1..10. -/
def laneNumber (i : LaneNo) : Nat := i.val + 1

/-- The ten lanes in ascending order. -/
def allLanes : List LaneNo := [0, 1, 2, 3, 4, 5, 6, 7, 8, 9]

/-- A setting, by its key number less 1 (Table 12-9). -/
abbrev Key := Fin 40

/-- One row of Table 11-1: the range, the default, and whether the key is writable in ROSTER as well as in IDLE. -/
structure SettingRow where
  lo : Nat
  hi : Nat
  default : Nat
  inRoster : Bool
  deriving DecidableEq, Repr

/-- Keys 1..14 of Table 11-1, in the order of Table 12-9: those writable in IDLE and ROSTER. -/
def judgingRows : Vector SettingRow 14 := #v[
  ⟨500, 2000, 1000, true⟩, ⟨0, 50, 0, true⟩, ⟨2500, 10000, 3000, true⟩, ⟨10000, 50000, 20000, true⟩,
  ⟨2000, 20000, 5000, true⟩, ⟨20, 1000, 150, true⟩, ⟨1, 255, 20, true⟩, ⟨2, 8, 3, true⟩, ⟨20, 1000, 120, true⟩,
  ⟨1, 8, 3, true⟩, ⟨2, 20, 8, true⟩, ⟨2, 50, 10, true⟩, ⟨100, 1000, 500, true⟩, ⟨0, 1, 1, true⟩]

/-- Keys 15..20: the link ranges and latencies. -/
def linkRows : Vector SettingRow 6 := #v[
  ⟨0, 10, 1, false⟩, ⟨0, 10, 5, false⟩, ⟨0, 10, 6, false⟩, ⟨0, 10, 10, false⟩, ⟨0, 50, 3, false⟩, ⟨0, 50, 3, false⟩]

/-- Table 11-1 in the key order of Table 12-9: keys 21..30 are the lane offsets, 31..40 the closures. -/
def settingTable : Vector SettingRow 40 :=
  (judgingRows ++ linkRows ++ Vector.replicate 10 (⟨0, 255, 0, false⟩ : SettingRow) ++
      Vector.replicate 10 (⟨0, 1, 0, false⟩ : SettingRow) :
    Vector SettingRow (14 + 6 + 10 + 10))

/-- The forty working settings (R186), by key. -/
structure Settings where
  vals : Vector Nat 40
  deriving DecidableEq, Repr

namespace Settings

/-- The defaults of Table 11-1. -/
def defaults : Settings := ⟨settingTable.map SettingRow.default⟩

/-- A setting with a new value at one key. -/
def put (c : Settings) (k : Key) (v : Nat) : Settings := ⟨Vector.ofFn fun j => if j = k then v else c.vals[j]⟩

def falseLimit (c : Settings) : Nat := c.vals[0]
def tieTolerance (c : Settings) : Nat := c.vals[1]
def closeDelay (c : Settings) : Nat := c.vals[2]
def recallDeadline (c : Settings) : Nat := c.vals[3]
def recallPulse (c : Settings) : Nat := c.vals[4]
def thresholdFloor (c : Settings) : Nat := c.vals[5]
def thresholdRatio (c : Settings) : Nat := c.vals[6]
def confirmCount (c : Settings) : Nat := c.vals[7]
def steadyBand (c : Settings) : Nat := c.vals[8]
def settleBlocks (c : Settings) : Nat := c.vals[9]
def staleLimit (c : Settings) : Nat := c.vals[10]
def gunQualify (c : Settings) : Nat := c.vals[11]
def gunLockout (c : Settings) : Nat := c.vals[12]
def unsureRecall (c : Settings) : Bool := c.vals[13] == 1

/-- LINK_A_FIRST, LINK_B_FIRST. -/
def first (c : Settings) : LinkId → Nat
  | .a => c.vals[14]
  | .b => c.vals[16]

/-- LINK_A_LAST, LINK_B_LAST. -/
def last (c : Settings) : LinkId → Nat
  | .a => c.vals[15]
  | .b => c.vals[17]

/-- LINK_A_LATENCY, LINK_B_LATENCY. -/
def latency (c : Settings) : LinkId → Nat
  | .a => c.vals[18]
  | .b => c.vals[19]

/-- LANE_OFFSET_n of a lane. -/
def laneOffset (c : Settings) (i : LaneNo) : Nat := c.vals[20 + i.val]

/-- A lane is closed when its LANE_CLOSED setting is YES (R6). -/
def closed (c : Settings) (i : LaneNo) : Bool := c.vals[30 + i.val] == 1

/-- A link is enabled while its first lane is not 0 (R57). -/
def enabled (c : Settings) (l : LinkId) : Bool := c.first l != 0

/-- The link's lane range; none for a disabled link, whose range is empty (R6, R188). -/
def range (c : Settings) (l : LinkId) : Option (Nat × Nat) := if c.enabled l then some (c.first l, c.last l) else none

/-- A lane is served by a link when it lies in the link's lane range (R6). -/
def serves (c : Settings) (l : LinkId) (i : LaneNo) : Bool :=
  c.enabled l && decide (c.first l ≤ laneNumber i) && decide (laneNumber i ≤ c.last l)

/-- A lane can be entered only when it is open and one of the links serves it (R6, R16). -/
def canEnter (c : Settings) (i : LaneNo) : Bool := !c.closed i && (c.serves .a i || c.serves .b i)

/-- The slot of a link that carries a lane: the lane is in range and not closed (R60). -/
def slotOf (c : Settings) (l : LinkId) (i : LaneNo) : Option (Fin 6) :=
  if c.serves l i && !c.closed i then
    if h : laneNumber i - c.first l < 6 then some ⟨laneNumber i - c.first l, h⟩ else none
  else none

/-- A slot of a link is mapped when it carries a lane that is not closed (R60). -/
def mapped (c : Settings) (l : LinkId) (k : Fin 6) : Bool := allLanes.any fun i => c.slotOf l i == some k

/-- An enabled link's first lane is at most its last lane (R188). -/
def ordered (c : Settings) (l : LinkId) : Bool := !c.enabled l || decide (c.first l ≤ c.last l)

/-- An enabled link's span is at most six lanes (R188, R192). -/
def spanFits (c : Settings) (l : LinkId) : Bool := !c.enabled l || decide (c.last l ≤ c.first l + 5)

/-- Two enabled links share no lane, when each is ordered (R188). -/
def apart (c : Settings) : Bool :=
  !c.enabled .a || !c.enabled .b || decide (c.last .a < c.first .b) || decide (c.last .b < c.first .a)

/-- The ranges are ordered and share no lane (R188, tests). -/
def rangesValid (c : Settings) : Bool := c.ordered .a && c.ordered .b && c.apart

/-- Every value lies within its range (R186). -/
def inRange (c : Settings) : Bool :=
  decide (∀ k : Key, settingTable[k].lo ≤ c.vals[k] ∧ c.vals[k] ≤ settingTable[k].hi)

/-- The settings the store may hold: values within range and link ranges as R188 demands (R186, R192). -/
def legal (c : Settings) : Bool := c.inRange && c.rangesValid && c.spanFits .a && c.spanFits .b

/-- A value brought into the key's range (R187). -/
def clampTo (k : Key) (v : Nat) : Nat := max settingTable[k].lo (min v settingTable[k].hi)

/-- The link whose range a key belongs to, for the four link range keys. -/
def rangeLink (k : Key) : Option LinkId :=
  if k = 14 ∨ k = 15 then some .a else if k = 16 ∨ k = 17 then some .b else none

/-- The key of a link's last lane. -/
def lastKey : LinkId → Key
  | .a => 15
  | .b => 17

/-- The span clamp of R188: the link's last lane is taken as its first plus 5 where the span exceeds six lanes. -/
def clampSpan (c : Settings) (l : LinkId) : Settings :=
  if c.spanFits l then c else c.put (lastKey l) (c.first l + 5)

end Settings

/-- One bit of the CRC-16 shift register, polynomial x^16 + x^12 + x^5 + 1 (R190). -/
def crc16Bits (r : BitVec 16) : List Bool → BitVec 16
  | [] => r
  | b :: bs => if r.msb != b then crc16Bits ((r <<< 1) ^^^ 0x1021#16) bs else crc16Bits (r <<< 1) bs

/-- The bits of a byte, most significant first (R175, R190). -/
def byteBits (x : Byte) : List Bool := (List.range 8).map x.getMsbD

/-- The CRC-16 of the profile: initial value 0xFFFF, most significant bit first, no final inversion (R190). -/
def crc16 (bytes : List Byte) : BitVec 16 := crc16Bits 0xFFFF (bytes.flatMap byteBits)

/-- The 82 bytes of the non-volatile profile (R195). -/
abbrev Image := Vector Byte 82

/-- Bytes 0..79 of the image: the values of keys 1..40, 2 bytes each (R195). That the high byte comes first is the model's choice
(log 30). -/
def settingBytes (c : Settings) : Vector Byte 80 :=
  Vector.ofFn fun i =>
    let v := c.vals[i.val / 2]
    if i.val % 2 = 0 then BitVec.ofNat 8 (v / 256) else BitVec.ofNat 8 v

/-- The image of a set of settings with its CRC-16 in bytes 80..81 (R190, R195), the high byte first (log 30). -/
def imageOf (c : Settings) : Image :=
  let body := settingBytes c
  let crc := crc16 body.toList
  (body ++ #v[crc.extractLsb' 8 8, crc.extractLsb' 0 8] : Vector Byte (80 + 2))

/-- The settings that an image stores (R195), the high byte of each value first (log 30). -/
def imageSettings (m : Image) : Settings :=
  ⟨Vector.ofFn fun k => m[2 * k.val].toNat * 256 + m[2 * k.val + 1].toNat⟩

/-- The CRC-16 that an image stores (R195), its high byte first (log 30). -/
def imageCrc (m : Image) : BitVec 16 := m[80] ++ m[81]

/-- A load accepts an image when its CRC agrees, every value lies within its range and the stored link ranges meet the
conditions of R188; a stored span of more than six lanes is not clamped (R192). -/
def imageAccepted (m : Image) : Bool :=
  decide (crc16 (m.toList.take 80) = imageCrc m) && (imageSettings m).legal

end Sys2Proof.Machine
end

