-- ==== Sys2Proof/Machine/State.lean ====
section
/-! DEFINITION. The state of the block: everything the manual gives the machine, the queue of waiting commands, and the
state after reset. -/

namespace Sys2Proof.Machine

/-- No command of the manual stops the block: a refused command answers a result code and the part goes on (R180), so
nobody raises a fault. Safe. -/
inductive Fault where
  deriving DecidableEq, Repr

/-- Why a command has no meaning. -/
inductive Refusal where
  /-- Raised by exec's arm for a command that has no meaning yet. No arm answers it now. Safe. -/
  | notModelled (mnemonic : String)
  deriving DecidableEq, Repr

/-- Heat states (R24, Table 2-2). -/
inductive HeatState where
  | idle | roster | marks | set | watch | running | done | review
  deriving DecidableEq, Repr

/-- Lane phases (Table 1-1). -/
inductive Phase where
  | off | settling | settled | moved | reacted | waiting | unsure
  deriving DecidableEq, Repr

/-- Standings of an entered athlete (R5). -/
inductive Standing where
  | eligible | cautioned | disqualified | withdrawn
  deriving DecidableEq, Repr

/-- Charging policies (R10). -/
inductive Policy where
  | individual | field | caution
  deriving DecidableEq, Repr

/-- Causes of a recall (R39). -/
inductive RecallCause where
  | falseStart | starter | equipment
  deriving DecidableEq, Repr

/-- Effects of a charge (Table 1-4). -/
inductive Effect where
  | caution | disqualify
  deriving DecidableEq, Repr

/-- Outcomes of an attempt (Table 1-6). -/
inductive AttemptOutcome where
  | clean | falseStart | starterRecall | equipmentRecall | stoodUp
  deriving DecidableEq, Repr

/-- Alignment states of a link receiver (R52). -/
inductive Align where
  | search | confirm | locked | disabled
  deriving DecidableEq, Repr

/-- Kinds of a baseline (Table 1-1). -/
inductive BaselineKind where
  | settled | provisional
  deriving DecidableEq, Repr

/-- Result codes (Tables 10-2 and 12-3). -/
inductive ResultCode where
  | done | clamped | busy | wrongState | badArgument | duplicate | notFound | noLanes | limit | tooLate | final | locked
  | notArmed | framing
  deriving DecidableEq, Repr

/-- The fourteen notice sources in order (Table 9-1). -/
inductive NoticeSource where
  | falseStart | recall | linkADown | linkBDown | laneUnsure | earlyMove | attemptClosed | gunOutOfTurn | profileBad
  | gunGlitch | deadlinePassed | profileDone | commandError | permitChange
  deriving DecidableEq, Repr

/-- The cause of a charge; a sensed charge carries its RT and a referee's carries none (Table 1-4). -/
inductive ChargeCause where
  | sensed (rt : Int)
  | referee
  deriving DecidableEq, Repr

/-- A charge entry (R7). -/
structure Charge where
  attempt : Nat
  effect : Effect
  cause : ChargeCause
  final : Bool
  deriving DecidableEq, Repr

/-- The kind of a last result, with its RT for the kinds that carry one (Table 1-2). -/
inductive ResultKind where
  | clean (rt : Int)
  | noReaction
  | culprit (rt : Int)
  | provoked (rt : Int)
  | unsure
  | notStarted
  deriving DecidableEq, Repr

/-- A lane's last result (R4). -/
structure LaneResult where
  kind : ResultKind
  provisional : Bool
  deriving DecidableEq, Repr

/-- What an ENTERED lane record holds beside its sensing fields (R1, R2). -/
structure Entry where
  bib : Nat
  standing : Standing
  /-- oldest first (R8) -/
  charges : List Charge
  result : Option LaneResult
  deriving DecidableEq, Repr

/-- A baseline with its kind and level, and whether the unit detects against it (Table 5-1). -/
structure Baseline where
  value : Nat
  level : Nat
  kind : BaselineKind
  inUse : Bool
  deriving DecidableEq, Repr

/-- A sample as detection keeps it: sample time and drive force (Table 6-1). -/
structure SamplePoint where
  time : Stamp
  force : Nat
  deriving DecidableEq, Repr

/-- A block in progress; empty when its count is 0 (R92). -/
structure Block where
  count : Nat
  minimum : Nat
  maximum : Nat
  sum : Nat
  deriving DecidableEq, Repr

/-- The last complete block (R93). -/
structure BlockEnd where
  mean : Nat
  threshold : Nat
  deriving DecidableEq, Repr

/-- A lane: its record (Table 1-1) and its sensing unit's working state (Tables 5-1 and 6-1). VACANT is `entry = none`. -/
structure Lane where
  entry : Option Entry
  phase : Phase
  baseline : Option Baseline
  onset : Option Stamp
  rt : Option Int
  lastForce : Option Nat
  block : Block
  lastBlock : Option BlockEnd
  settleCount : Nat
  heldCount : Nat
  runCount : Nat
  runStart : Option SamplePoint
  predecessor : Option SamplePoint
  lastJudged : Option SamplePoint
  deriving DecidableEq, Repr

/-- A frame between its frame position and its arrival (R59). `good`: its word was equal, so its slots are tested. -/
structure FrameInProgress where
  stamp : Stamp
  sampleTime : Stamp
  good : Bool
  deriving DecidableEq, Repr

/-- A link receiver (Table 3-3), with the level of its line. The frame position is held as the track time at which the
next alignment slot completes (log 6). -/
structure LinkRx where
  align : Align
  framePos : Option Stamp
  confirmCount : Nat
  erroredCount : Nat
  lastTransition : Stamp
  prevSeq : Vector (Option (BitVec 4)) 6
  checkFailures : Nat
  seqFaults : Nat
  losses : Nat
  frame : Option FrameInProgress
  lineHigh : Bool
  deriving DecidableEq, Repr

/-- A qualification in progress: edge stamp and the GUN_QUALIFY value taken at the edge (Table 4-1). -/
structure Qualification where
  edge : Stamp
  period : Nat
  deriving DecidableEq, Repr

/-- The gun capture block (Table 4-1), with the synchronised level of GUN_IN. -/
structure Gun where
  qualification : Option Qualification
  lastAccepted : Option Stamp
  lockoutEnd : Option Stamp
  permitOut : Bool
  lineLow : Bool
  deriving DecidableEq, Repr

/-- The heat's identity (R10). -/
structure HeatId where
  number : Nat
  policy : Policy
  deriving DecidableEq, Repr

/-- A recall as recorded (R39). -/
structure RecallRecord where
  cause : RecallCause
  stamp : Stamp
  deriving DecidableEq, Repr

/-- The field warning (R11). -/
structure FieldWarning where
  attempt : Nat
  culprits : List LaneNo
  final : Bool
  deriving DecidableEq, Repr

/-- The heat record (Table 1-5) and the heat controller's timers (Table 2-1). RECALL_OUT is high exactly while the pulse
end is present. -/
structure Heat where
  state : HeatState
  attempt : Nat
  id : Option HeatId
  gunStamp : Option Stamp
  issued : Option RecallRecord
  closeTime : Option Stamp
  deadlineTime : Option Stamp
  pulseEnd : Option Stamp
  warning : Option FieldWarning
  deriving DecidableEq, Repr

/-- The attempt report (Table 1-6). -/
structure Report where
  attempt : Nat
  outcome : AttemptOutcome
  gunStamp : Option Stamp
  recallCause : Option RecallCause
  culprits : List LaneNo
  provoked : List LaneNo
  unsure : List LaneNo
  movers : List LaneNo
  earliest : Option Int
  deriving DecidableEq, Repr

/-- The notice unit (R163): the pending flags of the event sources, by order number less 1 (the two condition sources have
no flag of their own, they are computed: R165), the levels and the ceiling. -/
structure Notices where
  events : Vector Bool 14
  levels : Vector (Fin 8) 14
  ceiling : Fin 8
  deriving DecidableEq, Repr

/-- The profile state (R186); while a save is in progress, the image being written and the moment it began (R190). -/
inductive ProfileState where
  | ready
  | saving (image : Image) (since : Stamp)
  | defaults
  deriving DecidableEq, Repr

/-- What a streaming read sends next (R181, R21). -/
inductive Stream where
  | status
  | roster (next : LaneNo)
  deriving DecidableEq, Repr

/-- The response in progress (Table 10-1): the result byte and its byte position, the copy being sent and the byte position
of its first byte, and the stream it belongs to. -/
structure Response where
  result : ResultCode
  resultPos : Nat
  copyPos : Nat
  copy : List Byte
  stream : Option Stream
  deriving DecidableEq, Repr

/-- Why the port ignores the rest while select is low: an unknown code (R179), a soft reset in the same transaction (R184),
or select found low at the end of a full reset (R185, log 13). -/
inductive IgnoreCause where
  | unknownCode | softReset | fullReset
  deriving DecidableEq, Repr

/-- The transaction phase (R174). -/
inductive PortPhase where
  | deselected
  | collecting
  | answering
  | streaming
  | ignoring (cause : IgnoreCause)
  deriving DecidableEq, Repr

/-- The command port (Table 10-1), whether a taken SOFT RESET waits to act (R184), and the last eight bits sampled from SDI.
The argument bytes received are held themselves; Table 10-1's field is their number. -/
structure Port where
  phase : PortPhase
  bitCount : Option Nat
  bytePos : Option Nat
  code : Option Byte
  argsReceived : Option (List Byte)
  response : Option Response
  latch : Bool
  lastResult : ResultCode
  softArmed : Bool
  shift : BitVec 8
  deriving DecidableEq, Repr

/-- An edge at a pin of the command port, or a level at PROFILE_WP (R174, R175, R190): what waits at the pins (log 27). -/
inductive PinEdge where
  | selectFall
  | selectRise
  /-- SCK rises with SDI at the given level. -/
  | sckRise (sdi : Bool)
  | sckFall
  | profileWp (high : Bool)
  deriving DecidableEq, Repr

/-- The state of the block. -/
structure State where
  pending : List Instr
  edges : List PinEdge
  trackTime : Stamp
  inReset : Bool
  profileWp : Bool
  sckHigh : Bool
  port : Port
  linkA : LinkRx
  linkB : LinkRx
  gun : Gun
  heat : Heat
  lanes : Vector Lane 10
  bibIndex : List (Nat × LaneNo)
  report : Option Report
  notices : Notices
  settings : Settings
  profile : ProfileState
  nvm : Image
  freeCount : Nat
  deriving DecidableEq, Repr

/-- The empty block. -/
def Block.empty : Block := ⟨0, 0, 0, 0⟩

/-- A lane after a full or soft reset: VACANT, OFF, with every sensing field cleared (R23, R108, R127). -/
def Lane.cleared : Lane :=
  ⟨none, .off, none, none, none, none, Block.empty, none, 0, 0, 0, none, none, none⟩

/-- A link receiver after a full reset, with the line at `line` (R72). -/
def LinkRx.afterReset (enabled line : Bool) : LinkRx :=
  ⟨if enabled then .search else .disabled, none, 0, 0, 0, Vector.replicate 6 none, 0, 0, 0, none, line⟩

/-- The heat controller after a reset (R23, R50). -/
def Heat.cleared : Heat := ⟨.idle, 0, none, none, none, none, none, none, none⟩

/-- The default levels of Table 9-1. -/
def Notices.defaultLevels : Vector (Fin 8) 14 := #v[0, 1, 1, 1, 2, 2, 2, 3, 3, 4, 4, 5, 5, 6]

/-- The notice unit after a reset's clear (R173). -/
def Notices.cleared : Notices := ⟨Vector.replicate 14 false, Notices.defaultLevels, 7⟩

/-- The port after a full reset, with select high (R185), and while one lasts, at either level of select (log 31). -/
def Port.afterReset : Port := ⟨.deselected, none, none, none, none, none, false, .done, false, 0⟩

/-- The block right after a full reset has ended, with select high, SCK and both lines low, the gun's contact open,
PROFILE_WP high and the profile a part is delivered with (R72, R74, R85, R173, R185, R193; log 5, log 11, log 15). -/
def State.reset : State where
  pending := []
  edges := []
  trackTime := 0
  inReset := false
  profileWp := true
  sckHigh := false
  port := Port.afterReset
  linkA := LinkRx.afterReset true false
  linkB := LinkRx.afterReset true false
  gun := ⟨none, none, none, false, false⟩
  heat := Heat.cleared
  lanes := Vector.replicate 10 Lane.cleared
  bibIndex := []
  report := none
  notices := Notices.cleared
  settings := Settings.defaults
  profile := .ready
  nvm := imageOf Settings.defaults
  freeCount := 0

end Sys2Proof.Machine
end

