-- ==== Sys2Proof/Machine/Operands.lean ====
section
/-! DEFINITION. The operand forms: argument bytes of the port commands, and the bits of a lane slot with its tests. -/

namespace Sys2Proof.Machine

/-- A lane argument 1..10. -/
def parseLane (x : Byte) : Option LaneNo :=
  if h : 1 ≤ x.toNat ∧ x.toNat ≤ 10 then some ⟨x.toNat - 1, by omega⟩ else none

/-- A bib argument 1..9,999. -/
def parseBib (x : BitVec 16) : Option Nat := if 1 ≤ x.toNat ∧ x.toNat ≤ 9999 then some x.toNat else none

/-- A policy argument: 0 INDIVIDUAL, 1 FIELD, 2 CAUTION (R13). -/
def parsePolicy (x : Byte) : Option Policy :=
  if x = 0 then some .individual else if x = 1 then some .field else if x = 2 then some .caution else none

/-- An effect argument: 0 CAUTION, 1 DISQUALIFY (R152). -/
def parseEffect (x : Byte) : Option Effect :=
  if x = 0 then some .caution else if x = 1 then some .disqualify else none

/-- A link argument: 0 link A, 1 link B (R71). -/
def parseLink (x : Byte) : Option LinkId := if x = 0 then some .a else if x = 1 then some .b else none

/-- A clear argument: 0 or 1 (R71). -/
def parseClear (x : Byte) : Option Bool := if x = 0 then some false else if x = 1 then some true else none

/-- A setting key 1..40 (Table 12-9). -/
def parseKey (x : Byte) : Option Key :=
  if h : 1 ≤ x.toNat ∧ x.toNat ≤ 40 then some ⟨x.toNat - 1, by omega⟩ else none

/-- The sources in order of their order numbers 1..14 (Table 9-1). -/
def allSources : List NoticeSource :=
  [.falseStart, .recall, .linkADown, .linkBDown, .laneUnsure, .earlyMove, .attemptClosed, .gunOutOfTurn, .profileBad,
    .gunGlitch, .deadlinePassed, .profileDone, .commandError, .permitChange]

/-- The order number of a source less 1. -/
def NoticeSource.index : NoticeSource → Fin 14
  | .falseStart => 0
  | .recall => 1
  | .linkADown => 2
  | .linkBDown => 3
  | .laneUnsure => 4
  | .earlyMove => 5
  | .attemptClosed => 6
  | .gunOutOfTurn => 7
  | .profileBad => 8
  | .gunGlitch => 9
  | .deadlinePassed => 10
  | .profileDone => 11
  | .commandError => 12
  | .permitChange => 13

/-- A source argument: an order number 1..14 (R163). -/
def parseSource (x : Byte) : Option NoticeSource :=
  if 1 ≤ x.toNat then allSources[x.toNat - 1]? else none

/-- A level or ceiling argument brought into 0..7 (R168, R170). -/
def clampLevel (x : Byte) : Fin 8 := ⟨min x.toNat 7, by omega⟩

/-- DONE, or CLAMPED when a level or ceiling argument is above 7 (R168, R170). -/
def levelResult (x : Byte) : ResultCode := if x.toNat ≤ 7 then .done else .clamped

/-- The bits of a lane slot (Table 12-1): bit k of the slot is the bit of weight 2^(39 - k). -/
def slotFront (w : BitVec 40) : Nat := (w.extractLsb' 28 12).toNat
def slotRear (w : BitVec 40) : Nat := (w.extractLsb' 16 12).toNat
def slotFrontOverload (w : BitVec 40) : Bool := w.getLsbD 15
def slotRearOverload (w : BitVec 40) : Bool := w.getLsbD 14
def slotFault (w : BitVec 40) : Bool := w.getLsbD 13
def slotPresent (w : BitVec 40) : Bool := w.getLsbD 12
def slotSequence (w : BitVec 40) : BitVec 4 := w.extractLsb' 8 4
def slotCheck (w : BitVec 40) : BitVec 8 := w.extractLsb' 0 8

/-- One bit of the CRC-8 shift register, polynomial x^8 + x^2 + x + 1 (Table 3-2, note 2). -/
def crc8Bits (r : BitVec 8) : List Bool → BitVec 8
  | [] => r
  | b :: bs => if r.msb != b then crc8Bits ((r <<< 1) ^^^ 0x07#8) bs else crc8Bits (r <<< 1) bs

/-- The CRC-8 over bits 0..31 of a slot, in transmission order, initial value 0x00 (Table 3-2, note 2). -/
def slotCrc (w : BitVec 40) : BitVec 8 := crc8Bits 0 ((List.range 32).map w.getMsbD)

/-- One pedal's contribution: its code, or full scale when its overload flag is set (R90). -/
def pedalForce (overload : Bool) (code : Nat) : Nat := if overload then 4095 else code

/-- The drive force of a slot (R90). -/
def slotForce (w : BitVec 40) : Nat :=
  pedalForce (slotFrontOverload w) (slotFront w) + pedalForce (slotRearOverload w) (slotRear w)

/-- What a slot's tests decide: the drive force of a fresh sample or none for a held one, the previous sequence after, and
what is counted (R62, R63). -/
structure SlotOutcome where
  force : Option Nat
  prev : Option (BitVec 4)
  checkFailed : Bool
  sequenceFault : Bool
  deriving DecidableEq, Repr

/-- A sequence that is neither the previous one nor the next, when there is a previous one (R63). -/
def sequenceSkips (prev : Option (BitVec 4)) (s : BitVec 4) : Bool :=
  match prev with
  | none => false
  | some p => s != p && s != p + 1

/-- The tests of a mapped, unclosed slot of a frame with a good word, in order (R62, R63). -/
def judgeSlot (prev : Option (BitVec 4)) (w : BitVec 40) : SlotOutcome :=
  if slotCheck w ≠ slotCrc w then ⟨none, prev, true, false⟩
  else if slotPresent w = false then ⟨none, prev, false, false⟩
  else
    { force := if slotFault w || prev == some (slotSequence w) then none else some (slotForce w)
      prev := some (slotSequence w)
      checkFailed := false
      sequenceFault := sequenceSkips prev (slotSequence w) }

/-- A slot of an errored or silent frame: held, not tested, nothing counted (R65). -/
def heldSlot (prev : Option (BitVec 4)) : SlotOutcome := ⟨none, prev, false, false⟩

end Sys2Proof.Machine
end

