-- ==== Sys2Proof/Machine/Flags.lean ====
section
/-! DEFINITION. The computed flags and output pins: eligibility, the notice unit's conditions, winner and ATTN, the gun
permit, RECALL_OUT, and which result codes are refusals. -/

namespace Sys2Proof.Machine

/-- A refusal: every result code but DONE and CLAMPED (R180, Table 10-2). -/
def ResultCode.refusal : ResultCode → Bool
  | .done => false
  | .clamped => false
  | _ => true

/-- The receiver of a link. -/
def State.link (s : State) : LinkId → LinkRx
  | .a => s.linkA
  | .b => s.linkB

/-- A lane is eligible to start when it is ENTERED with standing ELIGIBLE or CAUTIONED (R5). -/
def Lane.eligible (l : Lane) : Bool :=
  match l.entry with
  | none => false
  | some e => e.standing == .eligible || e.standing == .cautioned

/-- The lanes eligible to start, ascending (R5, R129). -/
def State.eligibleLanes (s : State) : List LaneNo := allLanes.filter fun i => s.lanes[i].eligible

/-- Some lane is eligible to start (R27, R31). -/
def State.anyEligible (s : State) : Bool := allLanes.any fun i => s.lanes[i].eligible

/-- A link is down while it is in SEARCH or CONFIRM (R68, R165). -/
def LinkRx.down (r : LinkRx) : Bool := r.align == .search || r.align == .confirm

/-- The pending flag of a source; the two condition sources are pending exactly while their link is down (R164, R165). -/
def State.noticePending (s : State) (x : NoticeSource) : Bool :=
  match x with
  | .linkADown => s.linkA.down
  | .linkBDown => s.linkB.down
  | _ => s.notices.events[x.index]

/-- The level of a source (R163). -/
def State.noticeLevel (s : State) (x : NoticeSource) : Fin 8 := s.notices.levels[x.index]

/-- A source qualifies when it is pending and its level is less than the ceiling (R166). -/
def State.qualifies (s : State) (x : NoticeSource) : Bool :=
  s.noticePending x && decide (s.noticeLevel x < s.notices.ceiling)

/-- The winner: the qualifying source of lowest level, and among equals the one of lowest order number (R166). -/
def State.winner (s : State) : Option NoticeSource :=
  (List.finRange 8).findSome? fun v => allSources.find? fun x => s.qualifies x && s.noticeLevel x == v

/-- ATTN asserted (driven low): at least one source qualifies; during a full reset it is deasserted (R166, R173). -/
def State.attn (s : State) : Bool := !s.inReset && allSources.any s.qualifies

/-- RECALL_OUT is high exactly while the pulse end is present (R41, Table 2-1). -/
def State.recallOut (s : State) : Bool := s.heat.pulseEnd.isSome

/-- A link holds the permit low when it serves a lane eligible to start and is not LOCKED (R82, condition 5). -/
def State.linkReady (s : State) (l : LinkId) : Bool :=
  (s.link l).align == .locked || allLanes.all fun i => !(s.lanes[i].eligible && s.settings.serves l i)

/-- The five conditions of PERMIT_OUT (R82). -/
def State.permitConditions (s : State) : Bool :=
  s.heat.state == .set && s.anyEligible && (allLanes.all fun i => !s.lanes[i].eligible || s.lanes[i].phase == .settled) &&
    (allLanes.all fun i => s.lanes[i].phase != .moved) && s.linkReady .a && s.linkReady .b

/-- A profile save is in progress (R190). -/
def ProfileState.isSaving : ProfileState → Bool
  | .saving _ _ => true
  | _ => false

end Sys2Proof.Machine
end

