-- ==== Sys2Proof/Machine/Encode.lean ====
section
/-! DEFINITION. The records as the port sends them (12_formats_and_pins.md, R194, Tables 12-3 to 12-8). -/

namespace Sys2Proof.Machine

/-- A number in one byte. -/
def byteOf (n : Nat) : Byte := BitVec.ofNat 8 n

/-- A 16-bit number, big-endian. -/
def wordBytes (n : Nat) : List Byte := [BitVec.ofNat 8 (n / 256), BitVec.ofNat 8 n]

/-- A stamp as its 32-bit count, big-endian (R194). -/
def stampBytes (t : Stamp) : List Byte :=
  [t.extractLsb' 24 8, t.extractLsb' 16 8, t.extractLsb' 8 8, t.extractLsb' 0 8]

/-- A reaction time as a 16-bit two's-complement number (R194). -/
def rtBytes (rt : Int) : List Byte :=
  let w := BitVec.ofInt 16 rt
  [w.extractLsb' 8 8, w.extractLsb' 0 8]

/-- An optional field: its bytes, or zeros when absent (R194). -/
def optBytes {α : Type} (n : Nat) (f : α → List Byte) : Option α → List Byte
  | none => List.replicate n 0
  | some x => f x

/-- A presence flag of the given weight. -/
def flag (weight : Nat) (present : Bool) : Nat := if present then weight else 0

/-- A lane list as a 16-bit lane mask: lane n has weight 2^(n - 1) (R194). -/
def laneMask (lanes : List LaneNo) : Nat := (allLanes.map fun i => flag (2 ^ i.val) (lanes.contains i)).sum

/-- Table 12-3. -/
def ResultCode.value : ResultCode → Byte
  | .done => 0x01
  | .clamped => 0x02
  | .busy => 0x03
  | .wrongState => 0x04
  | .badArgument => 0x05
  | .duplicate => 0x06
  | .notFound => 0x07
  | .noLanes => 0x08
  | .limit => 0x09
  | .tooLate => 0x0A
  | .final => 0x0B
  | .locked => 0x0C
  | .notArmed => 0x0D
  | .framing => 0x0E

/-- Table 12-4, one enumeration each. -/
def HeatState.value : HeatState → Byte
  | .idle => 0
  | .roster => 1
  | .marks => 2
  | .set => 3
  | .watch => 4
  | .running => 5
  | .done => 6
  | .review => 7

def Phase.value : Phase → Byte
  | .off => 0
  | .settling => 1
  | .settled => 2
  | .moved => 3
  | .reacted => 4
  | .waiting => 5
  | .unsure => 6

def Standing.value : Standing → Byte
  | .eligible => 0
  | .cautioned => 1
  | .disqualified => 2
  | .withdrawn => 3

def ResultKind.value : ResultKind → Byte
  | .clean _ => 0
  | .noReaction => 1
  | .culprit _ => 2
  | .provoked _ => 3
  | .unsure => 4
  | .notStarted => 5

/-- The RT of a last result, for the kinds that carry one (Table 1-2). -/
def ResultKind.rt : ResultKind → Option Int
  | .clean rt => some rt
  | .culprit rt => some rt
  | .provoked rt => some rt
  | .noReaction => none
  | .unsure => none
  | .notStarted => none

def AttemptOutcome.value : AttemptOutcome → Byte
  | .clean => 0
  | .falseStart => 1
  | .starterRecall => 2
  | .equipmentRecall => 3
  | .stoodUp => 4

def Policy.value : Policy → Byte
  | .individual => 0
  | .field => 1
  | .caution => 2

def RecallCause.value : RecallCause → Byte
  | .falseStart => 0
  | .starter => 1
  | .equipment => 2

def Align.value : Align → Byte
  | .search => 0
  | .confirm => 1
  | .locked => 2
  | .disabled => 3

def ProfileState.value : ProfileState → Byte
  | .ready => 0
  | .saving _ _ => 1
  | .defaults => 2

def BaselineKind.value : BaselineKind → Byte
  | .settled => 0
  | .provisional => 1

/-- The RT of a charge entry, present for cause SENSED (Table 1-4). -/
def ChargeCause.rt : ChargeCause → Option Int
  | .sensed rt => some rt
  | .referee => none

/-- A charge entry, 4 bytes: attempt, flags, RT (12.3, after Table 12-5). -/
def chargeBytes (c : Charge) : List Byte :=
  [byteOf c.attempt,
    byteOf (flag 1 (c.effect == .disqualify) + flag 2 (c.cause == .referee) + flag 4 c.final + flag 8 c.cause.rt.isSome)] ++
    optBytes 2 rtBytes c.cause.rt

/-- The lane record, 30 bytes (Table 12-5). -/
def laneBytes (i : LaneNo) (l : Lane) : List Byte :=
  let result := l.entry.bind Entry.result
  let charges := (l.entry.map Entry.charges).getD []
  [byteOf (laneNumber i),
    byteOf (flag 1 l.entry.isSome + flag 2 l.baseline.isSome + flag 4 l.onset.isSome + flag 8 l.rt.isSome +
      flag 16 result.isSome),
    l.phase.value] ++
  optBytes 1 (fun e => [e.standing.value]) l.entry ++
  optBytes 2 (fun e => wordBytes e.bib) l.entry ++
  optBytes 2 (fun b => wordBytes b.value) l.baseline ++
  optBytes 1 (fun b => [b.kind.value]) l.baseline ++
  optBytes 2 (fun b => wordBytes b.level) l.baseline ++
  optBytes 4 stampBytes l.onset ++
  optBytes 2 rtBytes l.rt ++
  optBytes 1 (fun r => [r.kind.value]) result ++
  optBytes 1 (fun r => [byteOf (flag 1 r.kind.rt.isSome + flag 2 r.provisional)]) result ++
  optBytes 2 rtBytes (result.bind fun r => r.kind.rt) ++
  [byteOf charges.length] ++
  optBytes 4 chargeBytes charges[0]? ++
  optBytes 4 chargeBytes charges[1]?

/-- The heat record, 19 bytes (Table 12-6). -/
def heatBytes (h : Heat) : List Byte :=
  [h.state.value, byteOf h.attempt,
    byteOf (flag 1 h.id.isSome + flag 2 h.gunStamp.isSome + flag 4 h.issued.isSome + flag 8 h.warning.isSome)] ++
  optBytes 2 (fun d => wordBytes d.number) h.id ++
  optBytes 1 (fun d => [d.policy.value]) h.id ++
  optBytes 4 stampBytes h.gunStamp ++
  optBytes 1 (fun r => [r.cause.value]) h.issued ++
  optBytes 4 (fun r => stampBytes r.stamp) h.issued ++
  optBytes 1 (fun w => [byteOf w.attempt]) h.warning ++
  optBytes 1 (fun w => [byteOf (flag 1 w.final)]) h.warning ++
  optBytes 2 (fun w => wordBytes (laneMask w.culprits)) h.warning

/-- The attempt report, 18 bytes (Table 12-7). -/
def reportBytes (r : Report) : List Byte :=
  [byteOf r.attempt, r.outcome.value,
    byteOf (flag 1 r.gunStamp.isSome + flag 2 r.recallCause.isSome + flag 4 r.earliest.isSome)] ++
  optBytes 4 stampBytes r.gunStamp ++
  optBytes 1 (fun c => [c.value]) r.recallCause ++
  wordBytes (laneMask r.culprits) ++ wordBytes (laneMask r.provoked) ++ wordBytes (laneMask r.unsure) ++
  wordBytes (laneMask r.movers) ++
  optBytes 2 rtBytes r.earliest

/-- A notice source as its order number, 0 for none (R194). -/
def sourceByte : Option NoticeSource → Byte
  | none => 0
  | some x => byteOf (x.index.val + 1)

/-- The status record, 9 bytes, as it stands in a state (R182, Table 12-8). -/
def State.statusBytes (s : State) : List Byte :=
  [s.heat.state.value, byteOf s.heat.attempt,
    byteOf (flag 1 s.gun.permitOut + flag 2 s.recallOut + flag 4 s.port.latch),
    s.linkA.align.value, s.linkB.align.value, s.profile.value, s.port.lastResult.value, sourceByte s.winner,
    byteOf s.notices.ceiling.val]

/-- The response of READ NOTICES, 17 bytes: pending mask, levels, ceiling (12.3). -/
def State.noticeBytes (s : State) : List Byte :=
  wordBytes ((allSources.map fun x => flag (2 ^ x.index.val) (s.noticePending x)).sum) ++
  (allSources.map fun x => byteOf (s.noticeLevel x).val) ++ [byteOf s.notices.ceiling.val]

/-- The response of READ LINK, 6 bytes (12.3). -/
def linkBytes (r : LinkRx) : List Byte :=
  [r.align.value] ++ wordBytes r.checkFailures ++ wordBytes r.seqFaults ++ [byteOf r.losses]

/-- A lane record of the roster as it stands (R20, R21). -/
def State.laneRecord (s : State) (i : LaneNo) : List Byte := laneBytes i s.lanes[i]

end Sys2Proof.Machine
end

