-- ==== Sys2Proof/Machine/Clock.lean ====
section
/-! DEFINITION. Arithmetic of stamps (00_scope.md, Time; R24, R75). -/

namespace Sys2Proof.Machine

/-- "Stamp A minus stamp B": the signed difference of two stamps (R75). -/
def stampDiff (x y : Stamp) : Int := (x - y).toInt

/-- A stamp plus a duration, modulo 2^32 (R75). -/
def stampAdd (t : Stamp) (n : Nat) : Stamp := t + BitVec.ofNat 32 n

/-- Track time `now` has reached `t`: the signed difference is zero or more (R24). -/
def reached (t now : Stamp) : Bool := decide (0 ≤ stampDiff now t)

end Sys2Proof.Machine
end

