-- ==== Sys2Proof/Machine/Sensing.lean ====
section
/-! DEFINITION. The lane sensing unit (05_steadiness_and_baseline.md, 06_onset_and_reaction_time.md): drive force, blocks,
settling, the baseline, detection, the reaction time, and what each indication does to a lane. -/

namespace Sys2Proof.Machine

/-- A sample as a link receiver delivers it: sample time, and the drive force of a fresh sample or none when held (R61). -/
structure Sample where
  time : Stamp
  force : Option Nat
  deriving DecidableEq, Repr

/-- What a lane sensing unit reports (R119, R122, R126): a move before the gun, a false onset, a lane become UNSURE. -/
inductive LaneReport where
  | earlyMove
  | falseOnset
  | unsureLane
  deriving DecidableEq, Repr

/-- The threshold of a baseline (R93). -/
def threshold (c : Settings) (mean : Nat) : Nat := max c.thresholdFloor (mean * c.thresholdRatio / 256)

/-- The last fresh drive force is noted for every fresh sample delivered, whatever becomes of it (R91). -/
def Lane.noteFresh (l : Lane) (x : Sample) : Lane :=
  match x.force with
  | none => l
  | some f => { l with lastForce := some f }

/-- The drive force a sample stands for: its own, or the lane's last fresh one, or 0 while that is absent (R91). -/
def Lane.forceOf (l : Lane) (x : Sample) : Nat := x.force.getD (l.lastForce.getD 0)

/-- The held count after a sample (R100). -/
def heldAfter (c : Settings) (l : Lane) (x : Sample) : Nat :=
  match x.force with
  | some _ => 0
  | none => min (l.heldCount + 1) c.staleLimit

/-- A lane is stale at a held sample after which its held count stands at STALE_LIMIT (R100, R124). -/
def staleAt (c : Settings) (l : Lane) (x : Sample) : Bool := x.force.isNone && decide (c.staleLimit ≤ heldAfter c l x)

/-- The end of a detection period (R110). -/
def Lane.endDetection (l : Lane) : Lane :=
  { l with runCount := 0, runStart := none, predecessor := none, lastJudged := none }

/-- The baseline is kept, with its level, but is not in use (R95). -/
def Lane.dropBaseline (l : Lane) : Lane := { l with baseline := l.baseline.map fun b => { b with inUse := false } }

/-- A return to SETTLING with settle count 0: detection ends and the baseline is no longer in use (R95, R96, R100, R101). -/
def Lane.resettle (l : Lane) : Lane := { l.endDetection.dropBaseline with phase := .settling, settleCount := 0 }

/-- A sample joins the block (R92). -/
def Block.join (b : Block) (f : Nat) : Block :=
  if b.count = 0 then ⟨1, f, f, f⟩ else ⟨b.count + 1, min b.minimum f, max b.maximum f, b.sum + f⟩

/-- The mean of a complete block (R93). -/
def Block.mean (b : Block) : Nat := b.sum / Config.blockLength

/-- A block is steady when its span is at most STEADY_BAND (R93). -/
def Block.steady (c : Settings) (b : Block) : Bool := decide (b.maximum - b.minimum ≤ c.steadyBand)

/-- The headroom test: mean plus threshold at most 8,190 (R94). -/
def fits (c : Settings) (mean : Nat) : Bool := decide (mean + threshold c mean ≤ Config.fullScale)

/-- A baseline taken from a block mean, in use (R94, R104). -/
def baselineOf (c : Settings) (kind : BaselineKind) (mean : Nat) : Baseline := ⟨mean, mean + threshold c mean, kind, true⟩

/-- The judgement of a block end in SETTLING (R94, R95). -/
def Lane.judgeSettling (c : Settings) (steady : Bool) (mean : Nat) (l : Lane) : Lane :=
  if steady = false then l.resettle
  else if l.settleCount + 1 < c.settleBlocks then { l with settleCount := l.settleCount + 1 }
  else if fits c mean then
    { l.endDetection with
      phase := .settled, settleCount := c.settleBlocks, baseline := some (baselineOf c .settled mean) }
  else { l with settleCount := c.settleBlocks - 1 }

/-- The judgement of a block end in SETTLED (R95, R96, R97). -/
def Lane.judgeSettled (c : Settings) (steady : Bool) (mean : Nat) (l : Lane) : Lane :=
  if 0 < l.runCount then l
  else if steady && fits c mean then { l with baseline := some (baselineOf c .settled mean) }
  else l.resettle

/-- A block end (R93, Table 5-2): the block becomes the last complete block, is judged, and is emptied. -/
def Lane.blockEnd (c : Settings) (b : Block) (l : Lane) : Lane :=
  let l' := { l with block := Block.empty, lastBlock := some ⟨b.mean, threshold c b.mean⟩ }
  if l.phase = .settled then l'.judgeSettled c (b.steady c) b.mean else l'.judgeSettling c (b.steady c) b.mean

/-- A sample joins the lane's block, and its 40th sample ends it (R92, R93). -/
def Lane.joinBlock (c : Settings) (f : Nat) (l : Lane) : Lane :=
  let b := l.block.join f
  if b.count < Config.blockLength then { l with block := b } else l.blockEnd c b

/-- The run window in units (R112). -/
def runWindow (c : Settings) : Nat := 5 * (c.confirmCount + 2)

/-- A run in progress whose start lies more than the run window before a fresh sample lapses (R112). -/
def runLapses (c : Settings) (l : Lane) (t : Stamp) : Bool :=
  match l.runStart with
  | none => false
  | some p => decide (0 < l.runCount) && decide ((runWindow c : Int) < stampDiff t p.time)

/-- The end of a run within a detection period (R111, R112). -/
def Lane.endRun (l : Lane) : Lane := { l with runCount := 0, runStart := none, predecessor := none }

/-- A fresh sample judged against a level, after any lapse (R111). -/
def Lane.judgeSample (level : Nat) (p : SamplePoint) (l : Lane) : Lane :=
  let judged :=
    if p.force < level then l.endRun
    else if l.runCount = 0 then { l with runCount := 1, runStart := some p, predecessor := l.lastJudged }
    else { l with runCount := l.runCount + 1 }
  { judged with lastJudged := some p }

/-- The crossing's offset from the predecessor, rounded to the nearest unit, a half up (R114). -/
def crossingOffset (dt level f0 f1 : Int) : Int := (2 * dt * (level - f0) + (f1 - f0)) / (2 * (f1 - f0))

/-- The onset stamp of a confirmed run (R114, R115). -/
def onsetStamp (level : Nat) (start : SamplePoint) (pred : Option SamplePoint) : Stamp :=
  match pred with
  | none => start.time
  | some p =>
    if p.force < level then
      p.time + BitVec.ofInt 32 (crossingOffset (stampDiff start.time p.time) level p.force start.force)
    else start.time

/-- A value saturated to −9,999..+9,999 (R117). -/
def saturateRt (x : Int) : Int := max (-Config.rtLimit) (min x Config.rtLimit)

/-- The reaction time of an onset against a gun stamp (R117). -/
def reactionTime (c : Settings) (i : LaneNo) (onset gun : Stamp) : Int :=
  saturateRt (stampDiff onset gun - c.laneOffset i)

/-- A reaction time is false when it is less than FALSE_LIMIT (R118). -/
def isFalse (c : Settings) (rt : Int) : Bool := decide (rt < c.falseLimit)

/-- The level a lane detects against: that of a baseline in use (R111). -/
def Lane.level? (l : Lane) : Option Nat :=
  match l.baseline with
  | some b => if b.inUse then some b.level else none
  | none => none

/-- Detection of a fresh sample (R111, R112, R113): the lane after it, and the onset stamp when it confirms an onset. -/
def Lane.detect (c : Settings) (p : SamplePoint) (l : Lane) : Lane × Option Stamp :=
  match l.level? with
  | none => (l, none)
  | some level =>
    let l1 := if runLapses c l p.time then l.endRun else l
    let l2 := l1.judgeSample level p
    if c.confirmCount ≤ l2.runCount then
      (l2.endDetection, some (onsetStamp level (l2.runStart.getD p) l2.predecessor))
    else (l2, none)

/-- An onset confirmed in SET: the lane is MOVED and forms no further block (R97, R113, R119). -/
def Lane.move (onset : Stamp) (l : Lane) : Lane := { l with phase := .moved, onset := some onset, block := Block.empty }

/-- A sample taken in SET by a SETTLING or SETTLED lane, in the order of R89. -/
def Lane.takeInSet (c : Settings) (x : Sample) (l : Lane) : Lane × Option LaneReport :=
  let l1 := { l with heldCount := heldAfter c l x }
  if staleAt c l x then ({ l1.resettle with block := Block.empty }, none)
  else
    match x.force with
    | none => (l1.joinBlock c (l.forceOf x), none)
    | some f =>
      if l.phase = .settled then
        match l1.detect c ⟨x.time, f⟩ with
        | (l2, some onset) => (l2.move onset, some .earlyMove)
        | (l2, none) => (l2.joinBlock c f, none)
      else (l1.joinBlock c f, none)

/-- A lane becomes UNSURE in WATCH (R126). -/
def Lane.makeUnsure (l : Lane) : Lane := { l.endDetection with phase := .unsure }

/-- An onset confirmed in WATCH: the lane is REACTED, with its reaction time (R122). -/
def Lane.react (c : Settings) (i : LaneNo) (gun : Option Stamp) (onset : Stamp) (l : Lane) : Lane × Option LaneReport :=
  match gun with
  | none => ({ l with phase := .reacted, onset := some onset }, none)
  | some g =>
    let rt := reactionTime c i onset g
    ({ l with phase := .reacted, onset := some onset, rt := some rt }, if isFalse c rt then some .falseOnset else none)

/-- A sample taken in WATCH by a lane of the attempt (R124, R111). -/
def Lane.takeInWatch (c : Settings) (i : LaneNo) (gun : Option Stamp) (x : Sample) (l : Lane) : Lane × Option LaneReport :=
  let l1 := { l with heldCount := heldAfter c l x }
  if staleAt c l x && (l.phase == .waiting || l.phase == .settling) then (l1.makeUnsure, some .unsureLane)
  else
    match x.force with
    | none => (l1, none)
    | some f =>
      if l.phase = .waiting then
        match l1.detect c ⟨x.time, f⟩ with
        | (l2, some onset) => l2.react c i gun onset
        | (l2, none) => (l2, none)
      else (l1, none)

/-- A sample delivered to a lane sensing unit is taken or discarded by the heat state and the phase (R89, R91). -/
def Lane.takeSample (c : Settings) (h : HeatState) (gun : Option Stamp) (i : LaneNo) (x : Sample) (l0 : Lane) :
    Lane × Option LaneReport :=
  let l := l0.noteFresh x
  match h with
  | .set =>
    if l.phase = .settling ∨ l.phase = .settled then l.takeInSet c x
    else if l.phase = .moved then ({ l with heldCount := heldAfter c l x }, none)
    else (l, none)
  | .watch => if l.phase = .off then (l, none) else l.takeInWatch c i gun x
  | _ => (l, none)

/-- The link-lost indication (R66, R101, R125, Table 3-7). -/
def Lane.linkLost (h : HeatState) (l : Lane) : Lane × Option LaneReport :=
  match h with
  | .set =>
    if l.phase = .settling ∨ l.phase = .settled then ({ l.resettle with block := Block.empty, heldCount := 0 }, none)
    else (l, none)
  | .watch => if l.phase = .waiting ∨ l.phase = .settling then (l.makeUnsure, some .unsureLane) else (l, none)
  | _ => (l, none)

/-- The reaction time of a mover at the gun; a difference above GUN_QUALIFY has wrapped and gives −9,999 (R120). -/
def moverRt (c : Settings) (i : LaneNo) (onset gun : Stamp) : Int :=
  if (c.gunQualify : Int) < stampDiff onset gun then -Config.rtLimit else reactionTime c i onset gun

/-- The gun-accepted indication to a lane of the attempt (R103, R104, R105, R120): block formation ends, and the lane takes
its baseline and phase for the watch window. A MOVED lane reports a false onset. -/
def Lane.gunAccepted (c : Settings) (i : LaneNo) (gun : Stamp) (l0 : Lane) : Lane × Option LaneReport :=
  let l := { l0 with block := Block.empty }
  match l.phase with
  | .settled => ({ l with phase := .waiting }, none)
  | .settling =>
    match l.lastBlock with
    | some b =>
      if b.mean + b.threshold ≤ Config.fullScale then
        ({ l.endDetection with phase := .waiting, baseline := some ⟨b.mean, b.mean + b.threshold, .provisional, true⟩ }, none)
      else (l, none)
    | none => (l, none)
  | .moved => ({ l with rt := l.onset.map fun o => moverRt c i o gun }, some .falseOnset)
  | _ => (l, none)

/-- The attempt-set indication to a lane eligible to start (R31, R107). -/
def Lane.attemptSet (l : Lane) : Lane :=
  { l with phase := .settling, settleCount := 0, heldCount := 0, block := Block.empty, lastBlock := none }

/-- The attempt-ended indication (R26, R107, R127): the block and the detection period end, the rest stands. -/
def Lane.attemptEnded (l : Lane) : Lane := { l.endDetection with block := Block.empty }

/-- The attempt-cleared indication (R26, R28, R107, R127). -/
def Lane.attemptCleared (l : Lane) : Lane :=
  { l.endDetection with
    phase := .off, baseline := none, onset := none, rt := none, block := Block.empty, lastBlock := none, settleCount := 0,
    heldCount := 0 }

end Sys2Proof.Machine
end

