-- ==== Sys2Proof/Machine/Ops.lean ====
section
/-! DEFINITION. The named operations over the state that the commands share: notices, the permit, recalls, lanes and link
receivers, changes of settings and the profile load. -/

namespace Sys2Proof.Machine

namespace State

/-- The receiver of one link replaced. -/
def withLink (s : State) (l : LinkId) (r : LinkRx) : State :=
  match l with
  | .a => { s with linkA := r }
  | .b => { s with linkB := r }

/-- Every lane changed by a function of its number. -/
def mapLanes (s : State) (f : LaneNo → Lane → Lane) : State := { s with lanes := Vector.ofFn fun i => f i s.lanes[i] }

/-- One lane changed. -/
def changeLane (s : State) (i : LaneNo) (f : Lane → Lane) : State := s.mapLanes fun j l => if j = i then f l else l

/-- The heat record and the heat controller's timers replaced. -/
def withHeat (s : State) (h : Heat) : State := { s with heat := h }

/-- The gun capture block replaced. -/
def withGun (s : State) (g : Gun) : State := { s with gun := g }

/-- The notice unit replaced. -/
def withNotices (s : State) (n : Notices) : State := { s with notices := n }

/-- The port replaced. -/
def withPort (s : State) (p : Port) : State := { s with port := p }

/-- The attempt report replaced. -/
def withReport (s : State) (r : Option Report) : State := { s with report := r }

/-- An event source is made pending (R164). A condition source has no flag to raise (R165). -/
def raise (s : State) (x : NoticeSource) : State :=
  s.withNotices { s.notices with events := Vector.ofFn fun k => s.notices.events[k] || k == x.index }

/-- An event source is raised when a condition holds. -/
def raiseIf (s : State) (b : Bool) (x : NoticeSource) : State := if b then s.raise x else s

/-- A source's flag is cleared (R167, R169). -/
def clearEvent (s : State) (x : NoticeSource) : State :=
  s.withNotices { s.notices with events := Vector.ofFn fun k => s.notices.events[k] && k != x.index }

/-- The permit is evaluated again; a change of PERMIT_OUT raises PERMIT_CHANGE (R83). -/
def settlePermit (s : State) : State :=
  if s.permitConditions = s.gun.permitOut then s
  else (s.withGun { s.gun with permitOut := s.permitConditions }).raise .permitChange

/-- The issue of a recall: nothing when the attempt has one already (R39, R41). -/
def issueRecall (s : State) (cause : RecallCause) : State :=
  match s.heat.issued with
  | some _ => s
  | none =>
    ((s.withHeat { s.heat with
        issued := some ⟨cause, s.trackTime⟩
        pulseEnd := some (stampAdd s.trackTime s.settings.recallPulse) }).raise .recall).raiseIf
      (cause == .falseStart) .falseStart

/-- A recall is issued when a condition holds. -/
def issueRecallIf (s : State) (b : Bool) (cause : RecallCause) : State := if b then s.issueRecall cause else s

/-- The lanes are changed by a function that also reports. -/
def lanesAfter (s : State) (f : LaneNo → Lane → Lane × Option LaneReport) : State := s.mapLanes fun i l => (f i l).1

/-- Some lane reports the given report. -/
def reported (s : State) (f : LaneNo → Lane → Lane × Option LaneReport) (r : LaneReport) : Bool :=
  allLanes.any fun i => (f i s.lanes[i]).2 == some r

/-- The lanes change and report: moves before the gun raise EARLY_MOVE; the false-onset reports are taken before the
unsure-lane reports (R40, R119, R122, R126). -/
def takeReports (s : State) (f : LaneNo → Lane → Lane × Option LaneReport) : State :=
  ((((s.lanesAfter f).raiseIf (s.reported f .earlyMove) .earlyMove).issueRecallIf (s.reported f .falseOnset) .falseStart).raiseIf
      (s.reported f .unsureLane) .laneUnsure).issueRecallIf
    (s.reported f .unsureLane && s.settings.unsureRecall) .equipment

end State

/-- A receiver's entry to SEARCH (R53): the frame position is absent, the counts are 0, and no frame is in progress. -/
def LinkRx.enterSearch (r : LinkRx) : LinkRx :=
  { r with align := .search, framePos := none, confirmCount := 0, erroredCount := 0, frame := none }

/-- A receiver disabled (R57, log 19). That the confirm count and the errored-word count become 0 here is the model's choice
(log 29): R53 zeroes them on entry to SEARCH, and R52 and R57 say nothing of them in DISABLED. -/
def LinkRx.disable (r : LinkRx) : LinkRx := { r.enterSearch with align := .disabled, prevSeq := Vector.replicate 6 none }

/-- Every previous sequence becomes absent (R57, R58). -/
def LinkRx.clearSequences (r : LinkRx) : LinkRx := { r with prevSeq := Vector.replicate 6 none }

/-- A counter increased by n, saturating at its maximum (R70). -/
def saturating (limit x n : Nat) : Nat := min (x + n) limit

/-- A link's departure from LOCKED: SEARCH, and a loss counted (R55, R56, R70). -/
def LinkRx.lose (r : LinkRx) : LinkRx := { r.enterSearch with losses := saturating 255 r.losses 1 }

/-- What a change of settings does to a receiver (R57). -/
def LinkRx.settingsChange (old new : Settings) (l : LinkId) (r : LinkRx) : LinkRx :=
  if new.enabled l = false then if old.enabled l then r.disable else r
  else if old.enabled l = false then r.enterSearch.clearSequences
  else if old.range l ≠ new.range l then r.clearSequences
  else
    { r with
      prevSeq := Vector.ofFn fun k =>
        if allLanes.any fun i => (old.slotOf l i == some k || new.slotOf l i == some k) && old.closed i != new.closed i then none
        else r.prevSeq[k] }

/-- What a change of settings does to a lane: the last fresh drive force becomes absent when the range of either link, or the
lane's closure, changes (R91). -/
def Lane.settingsChange (old new : Settings) (i : LaneNo) (l : Lane) : Lane :=
  if old.range .a ≠ new.range .a ∨ old.range .b ≠ new.range .b ∨ old.closed i ≠ new.closed i then { l with lastForce := none }
  else l

namespace State

/-- The working settings become `new`, and the receivers and lanes act on the change at once (R57, R91, R188). -/
def changeSettings (s : State) (new : Settings) : State :=
  { s with
    settings := new
    linkA := s.linkA.settingsChange s.settings new .a
    linkB := s.linkB.settingsChange s.settings new .b
    lanes := Vector.ofFn fun i => s.lanes[i].settingsChange s.settings new i }

/-- The settings a profile load gives: the stored values, or the defaults (R192). -/
def loadedSettings (s : State) : Settings := if imageAccepted s.nvm then imageSettings s.nvm else Settings.defaults

/-- The profile state a profile load gives (R192). -/
def loadedProfile (s : State) : ProfileState := if imageAccepted s.nvm then .ready else .defaults

/-- A profile load outside a full reset: settings, profile state, and PROFILE_BAD when the image is not accepted (R192). -/
def loadProfile (s : State) : State :=
  ({ s.changeSettings s.loadedSettings with profile := s.loadedProfile }).raiseIf (!imageAccepted s.nvm) .profileBad

/-- A starter's recall taken in RUNNING amends a CLEAN report in place (R147). -/
def amendReport (s : State) : State :=
  s.withReport (s.report.map fun r =>
    if r.outcome = .clean then { r with outcome := .starterRecall, recallCause := some .starter } else r)

/-- A starter's recall in WATCH or RUNNING, by RECALL or by a second shot (R37, R43). -/
def starterRecall (s : State) : State :=
  if s.heat.state = .running then
    let t := (s.issueRecall .starter).amendReport
    t.withHeat { t.heat with deadlineTime := none, state := .review }
  else s.issueRecall .starter

end State

/-- A record that becomes VACANT: OFF, with every optional field absent (R2). -/
def Lane.vacate (l : Lane) : Lane :=
  { l with entry := none, phase := .off, baseline := none, onset := none, rt := none }

/-- A record that becomes ENTERED with a bib (R2). -/
def Lane.enter (bib : Nat) (l : Lane) : Lane := { l.vacate with entry := some ⟨bib, .eligible, [], none⟩ }

/-- A lane's entry changed, when it has one. -/
def Lane.changeEntry (f : Entry → Entry) (l : Lane) : Lane := { l with entry := l.entry.map f }

/-- An entry takes its place in the bib index, in ascending order of bib (R9). -/
def indexInsert (bib : Nat) (i : LaneNo) : List (Nat × LaneNo) → List (Nat × LaneNo)
  | [] => [(bib, i)]
  | (b, j) :: rest => if bib < b then (bib, i) :: (b, j) :: rest else (b, j) :: indexInsert bib i rest

/-- The lane paired with a bib (R19). -/
def indexFind (bib : Nat) (index : List (Nat × LaneNo)) : Option LaneNo := (index.find? fun p => p.1 == bib).map Prod.snd

/-- A charge joins at the tail of the list, and the standing moves with it (R8, R135, R153). -/
def Entry.charge (attempt : Nat) (effect : Effect) (cause : ChargeCause) (e : Entry) : Entry :=
  { e with
    charges := e.charges ++ [⟨attempt, effect, cause, false⟩]
    standing := match effect with
      | .caution => .cautioned
      | .disqualify => .disqualified }

/-- The newest entry leaves the list, and the standing is set from what remains; a WITHDRAWN lane stays WITHDRAWN (R156). -/
def Entry.rescind (e : Entry) : Entry :=
  { e with
    charges := e.charges.dropLast
    standing :=
      if e.standing = .withdrawn then .withdrawn
      else if e.charges.dropLast.any fun c => c.effect == .disqualify then .disqualified
      else if e.charges.dropLast.any fun c => c.effect == .caution then .cautioned
      else .eligible }

/-- Every charge entry becomes final (R160). -/
def Entry.finalize (e : Entry) : Entry := { e with charges := e.charges.map fun c => { c with final := true } }

end Sys2Proof.Machine
end

