-- ==== Sys2Proof/Machine/Port.lean ====
section
/-! DEFINITION. The command port (10_command_port.md): how a command is taken and answered, what the port sends, the events of
a transaction, and the commands the port owns but for the reset itself. -/

namespace Sys2Proof.Machine

/-- An owner's answer to a command: its result, the copy it returns, and the stream the copy begins (R176). -/
structure Answer where
  result : ResultCode
  copy : List Byte
  stream : Option Stream
  deriving DecidableEq, Repr

/-- Success without a response (R177). -/
def Answer.ok : Answer := ⟨.done, [], none⟩

/-- A result without a response (R177). -/
def Answer.just (r : ResultCode) : Answer := ⟨r, [], none⟩

/-- Success with a copy of a record or values (R177). -/
def Answer.read (copy : List Byte) : Answer := ⟨.done, copy, none⟩

/-- What an owner does with a command: the state after its effect, and its answer (R176). -/
abbrev Owned := State × Answer

/-- A refusal leaves the records as they were (R180). -/
def State.refuse (s : State) (r : ResultCode) : Owned := (s, Answer.just r)

/-- Success without a response, with the given state after. -/
def State.succeed (s : State) : Owned := (s, Answer.ok)

/-- Success with a copy, and nothing changed. -/
def State.answerRead (s : State) (copy : List Byte) : Owned := (s, Answer.read copy)

/-- A command can be taken only while the port collects one (R174, R176). -/
def State.collecting (s : State) : Bool := !s.inReset && s.port.phase == .collecting

/-- The port as it answers a command of `n` argument bytes (R174, R176, R177): the result byte goes out in the byte position
after the last argument byte and the copy after it. The latch is set by RESET ENABLE and cleared by every other command
(R183); the last result is set by every command but READ STATUS (R180). -/
def Port.answering (p : Port) (code : Byte) (n : Nat) (a : Answer) : Port :=
  { p with
    phase := .answering
    bitCount := some 0
    bytePos := some (n + 1)
    code := some code
    argsReceived := none
    response := some ⟨a.result, n + 1, n + 2, a.copy, a.stream⟩
    latch := code == 0x02
    lastResult := if code == 0x01 then p.lastResult else a.result }

/-- The state after a command is taken with an owner's answer: a refusal raises COMMAND_ERROR (R180), and the port enters
Answering (R176). -/
def State.answered (code : Byte) (n : Nat) (o : Owned) : State :=
  let t := o.1.raiseIf o.2.result.refusal .commandError
  t.withPort (t.port.answering code n o.2)

/-- A port command: taken when the port is collecting, with its code and argument count of Table 12-2; while the port is in
any other phase its bytes reach no owner (R174, R175, log 4). -/
def State.receive (s : State) (i : Instr) (owner : State → Owned) : Host.Outcome State Fault Refusal :=
  match i.code with
  | none => .next s
  | some code => if s.collecting then .next (State.answered code i.argumentBytes.length (owner s)) else .next s

/-- The byte that the port sends at a byte position of the transaction, as its state stands: 0x00 in Collecting and Ignoring,
the result byte, the copy, and filler (R175, R177). -/
def Port.byteSent (p : Port) (k : Nat) : Byte :=
  match p.phase, p.response with
  | .answering, some r => if k = r.resultPos then r.result.value else if r.copyPos ≤ k then r.copy.getD (k - r.copyPos) 0 else 0
  | .streaming, some r => if k = r.resultPos then r.result.value else if r.copyPos ≤ k then r.copy.getD (k - r.copyPos) 0 else 0
  | _, _ => 0

/-- The bit that stands on SDO: of each byte sent, the bit that the falling edge before it placed, most significant bit first.
While SCK is high that is the bit placed before the rising edge, and after a byte's last rising edge still that byte's last bit
(R175). -/
def Port.sdoBit (p : Port) (sckHigh : Bool) : Bool :=
  match p.bytePos, p.bitCount with
  | some k, some n =>
    if sckHigh = false then (p.byteSent k).getMsbD n
    else if n = 0 then (p.byteSent (k - 1)).getMsbD 7
    else (p.byteSent k).getMsbD (n - 1)
  | _, _ => false

/-- SDO is driven while select is low, and high-impedance while select is high or a full reset lasts (R175, R185). -/
def State.sdoDriven (s : State) : Bool := !s.inReset && s.port.phase != .deselected

/-- The level of SDO; none while it is high-impedance (R175). -/
def State.sdo (s : State) : Option Bool := if s.sdoDriven then some (s.port.sdoBit s.sckHigh) else none

/-- The port with select high: nothing of a transaction is left (Table 10-1). -/
def Port.deselect (p : Port) : Port :=
  { p with phase := .deselected, bitCount := none, bytePos := none, code := none, argsReceived := none, response := none }

/-- A discard: last result FRAMING, latch cleared, COMMAND_ERROR raised (R179). -/
def State.discard (s : State) : State :=
  (s.withPort { s.port.deselect with lastResult := .framing, latch := false }).raise .commandError

/-- TRANSACTION_START: select falls, and a transaction begins in Collecting with a bit count of 0 (R174). Select can fall
only when it is high (log 3). -/
def execTransactionStart (s : State) : Host.Outcome State Fault Refusal :=
  if !s.inReset && s.port.phase == .deselected then
    .next (s.withPort { s.port.deselect with phase := .collecting, bitCount := some 0, bytePos := some 0 })
  else .next s

/-- UNKNOWN_COMMAND_CODE: the edge that completes a code byte that names no command puts the port in Ignoring (R179). -/
def execUnknownCommandCode (code : Byte) (s : State) : Host.Outcome State Fault Refusal :=
  if s.collecting && (argumentCount code).isNone then
    .next (s.withPort { s.port with
      phase := .ignoring .unknownCode, bitCount := some 0, bytePos := some 1, code := some code, argsReceived := none,
      response := none })
  else .next s

/-- RESET ENABLE always answers DONE; answering it sets the latch (R183). -/
def ownResetEnable (s : State) : Owned := s.succeed

/-- RESET ENABLE taken. -/
def execResetEnable (s : State) : Host.Outcome State Fault Refusal := s.receive .resetEnable ownResetEnable

/-- SOFT RESET: refused NOT_ARMED while the latch is clear, refused BUSY during a save; otherwise it is armed (R184). -/
def ownSoftReset (s : State) : Owned :=
  if s.port.latch = false then s.refuse .notArmed
  else if s.profile.isSaving then s.refuse .busy
  else (s.withPort { s.port with softArmed := true }).succeed

/-- SOFT RESET taken. -/
def execSoftReset (s : State) : Host.Outcome State Fault Refusal := s.receive .softReset ownSoftReset

/-- READ STATUS is never refused; its first copy is taken before the latch is cleared (R181, R183). -/
def ownReadStatus (s : State) : Owned := (s, ⟨.done, s.statusBytes, some .status⟩)

/-- READ STATUS taken. -/
def execReadStatus (s : State) : Host.Outcome State Fault Refusal := s.receive .readStatus ownReadStatus

/-- The copy of the next record of a stream, taken now, and what the stream sends after it (R21, R181). -/
def State.nextCopy (s : State) : Stream → List Byte × Stream
  | .status => (s.statusBytes, .status)
  | .roster i => (s.laneRecord i, .roster (i + 1))

/-- STREAM_RECORD_COPY: the port begins to send the next record of a streaming read, which is copied at this moment (R181). -/
def execStreamRecordCopy (s : State) : Host.Outcome State Fault Refusal :=
  if s.inReset then .next s
  else
    match s.port.response with
    | none => .next s
    | some r =>
      match r.stream with
      | none => .next s
      | some x =>
        let n := s.nextCopy x
        let at' := r.copyPos + r.copy.length
        .next (s.withPort { s.port with
          phase := .streaming, bitCount := some 0, bytePos := some at',
          response := some { r with copyPos := at', copy := n.1, stream := some n.2 } })

end Sys2Proof.Machine
end

