-- ==== Sys2Proof/Machine/NoticeCommands.lean ====
section
/-! DEFINITION. The five notice commands (09_notices_and_the_attention_line.md). -/

namespace Sys2Proof.Machine

/-- TAKE NOTICE (R167): the winner and the old ceiling; the ceiling takes the winner's level, and an event winner is cleared.
A condition winner has no flag of its own, so clearing it changes nothing. -/
def ownTakeNotice (s : State) : Owned :=
  let copy := [sourceByte s.winner, byteOf s.notices.ceiling.val]
  match s.winner with
  | none => s.answerRead copy
  | some x =>
    let t := s.clearEvent x
    (t.withNotices { t.notices with ceiling := s.noticeLevel x }).answerRead copy

def execTakeNotice (s : State) : Host.Outcome State Fault Refusal := s.receive .takeNotice ownTakeNotice

/-- NOTICE DONE (R168). -/
def ownNoticeDone (ceiling : Byte) (s : State) : Owned :=
  (s.withNotices { s.notices with ceiling := clampLevel ceiling }, Answer.just (levelResult ceiling))

def execNoticeDone (ceiling : Byte) (s : State) : Host.Outcome State Fault Refusal :=
  s.receive (.noticeDone ceiling) (ownNoticeDone ceiling)

/-- CLEAR NOTICE (R169). -/
def ownClearNotice (source : Byte) (s : State) : Owned :=
  match parseSource source with
  | none => s.refuse .badArgument
  | some x => if x = .linkADown ∨ x = .linkBDown then s.refuse .badArgument else (s.clearEvent x).succeed

def execClearNotice (source : Byte) (s : State) : Host.Outcome State Fault Refusal :=
  s.receive (.clearNotice source) (ownClearNotice source)

/-- A source's level replaced (R170). -/
def State.setLevel (s : State) (x : NoticeSource) (v : Fin 8) : State :=
  s.withNotices { s.notices with levels := Vector.ofFn fun k => if k = x.index then v else s.notices.levels[k] }

/-- SET NOTICE LEVEL (R170). -/
def ownSetNoticeLevel (source level : Byte) (s : State) : Owned :=
  match parseSource source with
  | none => s.refuse .badArgument
  | some x => (s.setLevel x (clampLevel level), Answer.just (levelResult level))

def execSetNoticeLevel (source level : Byte) (s : State) : Host.Outcome State Fault Refusal :=
  s.receive (.setNoticeLevel source level) (ownSetNoticeLevel source level)

/-- READ NOTICES (R171). -/
def ownReadNotices (s : State) : Owned := s.answerRead s.noticeBytes

def execReadNotices (s : State) : Host.Outcome State Fault Refusal := s.receive .readNotices ownReadNotices

end Sys2Proof.Machine
end

