-- ==== Sys2Proof/Machine/Reset.lean ====
section
/-! DEFINITION. The soft reset and the full reset, each as the blocks' chapters state it, and the rise of select, at which an
armed soft reset acts. -/

namespace Sys2Proof.Machine

/-- The soft reset of every block but the port (R184): roster and heat controller (R23, R50), lane sensing units (R108, R127),
gun capture with its qualification and lockout running on (R86), receivers kept (R73), notices (R173); then the profile load
(R193), which comes after the notice unit's clear (R173). -/
def State.softResetBlocks (s : State) : State :=
  { s with
    lanes := Vector.replicate 10 Lane.cleared
    bibIndex := []
    report := none
    heat := Heat.cleared
    gun := { s.gun with permitOut := false }
    notices := Notices.cleared }.loadProfile

/-- The soft reset acts: the latch is clear and nothing is armed any more (R183, R184). -/
def State.softReset (s : State) : State :=
  let t := s.softResetBlocks
  t.withPort { t.port with softArmed := false, latch := false }

/-- The port ignores the rest of the transaction in which the soft reset acted at the end of its result byte (R184): the next
byte position is the one after the result byte's. -/
def State.ignoreRest (s : State) : State :=
  s.withPort { s.port with
    phase := .ignoring .softReset, bitCount := some 0, bytePos := s.port.response.map (·.resultPos + 1), response := none }

/-- Select rises: an armed soft reset acts (R184), and the transaction ends normally or is discarded by the phase it is in
(R174, R178, R179). Select can rise only when it is low. -/
def State.selectRise (s : State) : State :=
  if s.inReset then s
  else
    match s.port.phase with
    | .deselected => s
    | .collecting => s.discard
    | .ignoring .unknownCode => s.discard
    | _ => if s.port.softArmed then (s.softReset).withPort (s.softReset.port.deselect) else s.withPort s.port.deselect

/-- TRANSACTION_END: the rise of select after a command has been taken (R178). -/
def execTransactionEnd (s : State) : Host.Outcome State Fault Refusal := .next s.selectRise

/-- TRANSACTION_DISCARD: the rise of select before a command is taken (R179). -/
def execTransactionDiscard (s : State) : Host.Outcome State Fault Refusal := .next s.selectRise

/-- SOFT_RESET_ACTION: an armed soft reset acts, at the end of the result byte or at the rise of select (R184). -/
def execSoftResetAction (moment : ResetMoment) (s : State) : Host.Outcome State Fault Refusal :=
  if s.inReset || !s.port.softArmed then .next s
  else
    match moment with
    | .resultByteEnd => .next s.softReset.ignoreRest
    | .selectRise => .next s.selectRise

/-- The non-volatile profile as a full reset finds it: part written when a save was in progress (R193, log 10). -/
def State.nvmAtReset (s : State) : Image :=
  match s.profile with
  | .saving image _ => Vector.ofFn fun i => if Config.saveByteWritten s.freeCount i.val then image[i] else s.nvm[i]
  | _ => s.nvm

/-- A full reset begins (R185): any transaction is abandoned, track time is 0 (R74), every block takes its full-reset state
(R23, R50, R72, R85, R108, R127, R173), and the profile is loaded (R193). The free counter moves on when a save was cut.
That the port is Deselected, with no bit count and no byte position, also while select is low is the model's choice (log 31). -/
def State.fullReset (s : State) : State :=
  let t : State := { s with nvm := s.nvmAtReset, freeCount := if s.profile.isSaving then s.freeCount + 1 else s.freeCount }
  { t with
    trackTime := 0
    inReset := true
    port := Port.afterReset
    linkA := LinkRx.afterReset (t.loadedSettings.enabled .a) s.linkA.lineHigh
    linkB := LinkRx.afterReset (t.loadedSettings.enabled .b) s.linkB.lineHigh
    gun := ⟨none, none, none, false, s.gun.lineLow⟩
    heat := Heat.cleared
    lanes := Vector.replicate 10 Lane.cleared
    bibIndex := []
    report := none
    notices := Notices.cleared
    settings := t.loadedSettings
    profile := t.loadedProfile }.raiseIf (!imageAccepted t.nvm) .profileBad

/-- FULL_RESET: power-on or a low level on RESET_N (R185). -/
def execFullReset (s : State) : Host.Outcome State Fault Refusal := .next s.fullReset

/-- FULL_RESET_END: track time begins to count, and the port is Deselected, or waits for select to rise (R74, R185). -/
def execFullResetEnd (selectHigh : Bool) (s : State) : Host.Outcome State Fault Refusal :=
  if s.inReset then
    let t : State := { s with inReset := false }
    if selectHigh then .next t
    else .next (t.withPort { t.port with phase := .ignoring .fullReset, bitCount := some 0, bytePos := some 0 })
  else .next s

end Sys2Proof.Machine
end

