-- ==== Sys2Proof/Machine/Review.lean ====
section
/-! DEFINITION. The amendment commands (08_review_and_amendment.md). -/

namespace Sys2Proof.Machine

/-- The review states (R150). -/
def reviewState (h : HeatState) : Bool := h == .running || h == .done || h == .review

/-- A charge list holds an entry of the given effect. -/
def Entry.holds (effect : Effect) (e : Entry) : Bool := e.charges.any fun c => c.effect == effect

/-- IMPOSE CHARGE, with its tests in order (R152, R153). -/
def ownImposeCharge (lane effect : Byte) (s : State) : Owned :=
  if reviewState s.heat.state = false then s.refuse .wrongState
  else
    match parseLane lane, parseEffect effect with
    | some i, some x =>
      match s.lanes[i].entry with
      | none => s.refuse .notFound
      | some e =>
        if e.standing = .withdrawn ∨ e.standing = .disqualified then s.refuse .wrongState
        else if x = .caution ∧ e.holds .caution then s.refuse .duplicate
        else (s.changeLane i (Lane.changeEntry (Entry.charge s.heat.attempt x .referee))).succeed
    | _, _ => s.refuse .badArgument

def execImposeCharge (lane effect : Byte) (s : State) : Host.Outcome State Fault Refusal :=
  s.receive (.imposeCharge lane effect) (ownImposeCharge lane effect)

/-- RESCIND CHARGE, with its tests in order (R155, R156). -/
def ownRescindCharge (lane : Byte) (s : State) : Owned :=
  if reviewState s.heat.state = false then s.refuse .wrongState
  else
    match parseLane lane with
    | none => s.refuse .badArgument
    | some i =>
      match s.lanes[i].entry with
      | none => s.refuse .notFound
      | some e =>
        match e.charges.getLast? with
        | none => s.refuse .notFound
        | some newest => if newest.final then s.refuse .final else (s.changeLane i (Lane.changeEntry Entry.rescind)).succeed

def execRescindCharge (lane : Byte) (s : State) : Host.Outcome State Fault Refusal :=
  s.receive (.rescindCharge lane) (ownRescindCharge lane)

/-- RESCIND FIELD WARNING, with its tests in order (R158). -/
def ownRescindFieldWarning (s : State) : Owned :=
  if reviewState s.heat.state = false then s.refuse .wrongState
  else
    match s.heat.warning with
    | none => s.refuse .notFound
    | some w => if w.final then s.refuse .final else (s.withHeat { s.heat with warning := none }).succeed

def execRescindFieldWarning (s : State) : Host.Outcome State Fault Refusal :=
  s.receive .rescindFieldWarning ownRescindFieldWarning

end Sys2Proof.Machine
end

