-- ==== Sys2Proof/Machine/Roster.lean ====
section
/-! DEFINITION. The start roster's commands (01_the_start_roster.md). -/

namespace Sys2Proof.Machine

/-- OPEN HEAT, with its tests in order (R13). -/
def ownOpenHeat (number : BitVec 16) (policy : Byte) (s : State) : Owned :=
  if s.heat.state ≠ .idle then s.refuse .wrongState
  else if s.profile.isSaving then s.refuse .busy
  else
    match parsePolicy policy with
    | none => s.refuse .badArgument
    | some p =>
      if number = 0 then s.refuse .badArgument
      else
        ((s.withHeat { s.heat with
            state := .roster, attempt := 0, id := some ⟨number.toNat, p⟩, gunStamp := none, issued := none,
            warning := none }).withReport none).succeed

def execOpenHeat (number : BitVec 16) (policy : Byte) (s : State) : Host.Outcome State Fault Refusal :=
  s.receive (.openHeat number policy) (ownOpenHeat number policy)

/-- The heat states in which CLOSE HEAT is taken (R14). -/
def closable (h : HeatState) : Bool := h == .roster || h == .running || h == .done || h == .review

/-- Every record of the heat is retired at once; a pulse in progress runs on (R14). -/
def State.retire (s : State) : State :=
  { s.mapLanes fun _ l => l.vacate with
    bibIndex := []
    heat := { Heat.cleared with pulseEnd := s.heat.pulseEnd }
    report := none }

/-- CLOSE HEAT (R14). -/
def ownCloseHeat (s : State) : Owned := if closable s.heat.state then s.retire.succeed else s.refuse .wrongState

def execCloseHeat (s : State) : Host.Outcome State Fault Refusal := s.receive .closeHeat ownCloseHeat

/-- The athlete is entered, and the bib joins the index (R2, R9, R16). -/
def State.enter (s : State) (i : LaneNo) (bib : Nat) : State :=
  { s.changeLane i (Lane.enter bib) with bibIndex := indexInsert bib i s.bibIndex }

/-- ENTER LANE, with its tests in order (R16). -/
def ownEnterLane (lane : Byte) (bib : BitVec 16) (s : State) : Owned :=
  if s.heat.state ≠ .roster then s.refuse .wrongState
  else
    match parseLane lane, parseBib bib with
    | some i, some b =>
      if s.settings.canEnter i = false then s.refuse .badArgument
      else if (indexFind b s.bibIndex).isSome then s.refuse .duplicate
      else if s.lanes[i].entry.isSome then s.refuse .duplicate
      else (s.enter i b).succeed
    | _, _ => s.refuse .badArgument

def execEnterLane (lane : Byte) (bib : BitVec 16) (s : State) : Host.Outcome State Fault Refusal :=
  s.receive (.enterLane lane bib) (ownEnterLane lane bib)

/-- The lane becomes VACANT, and its index entry leaves (R2, R9, R17). -/
def State.vacateLane (s : State) (i : LaneNo) : State :=
  { s.changeLane i Lane.vacate with bibIndex := s.bibIndex.filter fun p => p.2 != i }

/-- VACATE LANE, with its tests in order (R17). -/
def ownVacateLane (lane : Byte) (s : State) : Owned :=
  if s.heat.state ≠ .roster then s.refuse .wrongState
  else
    match parseLane lane with
    | none => s.refuse .badArgument
    | some i => if s.lanes[i].entry.isNone then s.refuse .notFound else (s.vacateLane i).succeed

def execVacateLane (lane : Byte) (s : State) : Host.Outcome State Fault Refusal :=
  s.receive (.vacateLane lane) (ownVacateLane lane)

/-- The standing becomes WITHDRAWN and the phase OFF; the rest is kept (R3, R18). -/
def Lane.withdraw (l : Lane) : Lane := { l.changeEntry fun e => { e with standing := .withdrawn } with phase := .off }

/-- WITHDRAW LANE, with its tests in order (R18). -/
def ownWithdrawLane (lane : Byte) (s : State) : Owned :=
  if s.heat.state = .idle ∨ s.heat.state = .set ∨ s.heat.state = .watch then s.refuse .wrongState
  else
    match parseLane lane with
    | none => s.refuse .badArgument
    | some i =>
      if s.lanes[i].entry.isNone then s.refuse .notFound
      else if s.lanes[i].eligible = false then s.refuse .wrongState
      else (s.changeLane i Lane.withdraw).succeed

def execWithdrawLane (lane : Byte) (s : State) : Host.Outcome State Fault Refusal :=
  s.receive (.withdrawLane lane) (ownWithdrawLane lane)

/-- FIND BIB (R19). -/
def ownFindBib (bib : BitVec 16) (s : State) : Owned :=
  match parseBib bib with
  | none => s.refuse .badArgument
  | some b =>
    match indexFind b s.bibIndex with
    | none => s.refuse .notFound
    | some i => s.answerRead [byteOf (laneNumber i)]

def execFindBib (bib : BitVec 16) (s : State) : Host.Outcome State Fault Refusal := s.receive (.findBib bib) (ownFindBib bib)

/-- READ LANE (R20). -/
def ownReadLane (lane : Byte) (s : State) : Owned :=
  match parseLane lane with
  | none => s.refuse .badArgument
  | some i => s.answerRead (s.laneRecord i)

def execReadLane (lane : Byte) (s : State) : Host.Outcome State Fault Refusal := s.receive (.readLane lane) (ownReadLane lane)

/-- READ ROSTER: the first record is copied now, the later ones as the stream reaches them; after lane 10 comes lane 1 (R21).
Lane numbers are counted modulo 10, so `i + 1` wraps. -/
def ownReadRoster (start : Byte) (s : State) : Owned :=
  match parseLane start with
  | none => s.refuse .badArgument
  | some i => (s, ⟨.done, s.laneRecord i, some (.roster (i + 1))⟩)

def execReadRoster (start : Byte) (s : State) : Host.Outcome State Fault Refusal :=
  s.receive (.readRoster start) (ownReadRoster start)

/-- READ HEAT (R22). -/
def ownReadHeat (s : State) : Owned := s.answerRead (heatBytes s.heat)

def execReadHeat (s : State) : Host.Outcome State Fault Refusal := s.receive .readHeat ownReadHeat

/-- READ ATTEMPT, refused NOT_FOUND while the report is absent (R22). -/
def ownReadAttempt (s : State) : Owned :=
  match s.report with
  | none => s.refuse .notFound
  | some r => s.answerRead (reportBytes r)

def execReadAttempt (s : State) : Host.Outcome State Fault Refusal := s.receive .readAttempt ownReadAttempt

end Sys2Proof.Machine
end

