-- ==== Sys2Proof/Machine/SettingsStore.lean ====
section
/-! DEFINITION. The settings store (11_settings_and_the_venue_profile.md). -/

namespace Sys2Proof.Machine

/-- READ SETTING (R187). -/
def ownReadSetting (key : Byte) (s : State) : Owned :=
  match parseKey key with
  | none => s.refuse .badArgument
  | some k => s.answerRead (wordBytes s.settings.vals[k])

def execReadSetting (key : Byte) (s : State) : Host.Outcome State Fault Refusal :=
  s.receive (.readSetting key) (ownReadSetting key)

/-- A key is writable in IDLE, and some keys in ROSTER too (R186). -/
def writableIn (k : Key) (h : HeatState) : Bool := h == .idle || (h == .roster && settingTable[k].inRoster)

/-- The settings a write of a value leaves: the value clamped to its range, and for a link range key the link's span clamped
(R187, R188). -/
def Settings.written (c : Settings) (k : Key) (v : Nat) : Settings :=
  match Settings.rangeLink k with
  | none => c.put k (Settings.clampTo k v)
  | some l => (c.put k (Settings.clampTo k v)).clampSpan l

/-- A write answers CLAMPED when the value was out of its range or the link's span was clamped (R187, R188). -/
def Settings.writeClamps (c : Settings) (k : Key) (v : Nat) : Bool :=
  Settings.clampTo k v != v ||
    match Settings.rangeLink k with
    | none => false
    | some l => !(c.put k (Settings.clampTo k v)).spanFits l

/-- A write of a link range key is refused when the ranges it would leave are not valid (R188). -/
def Settings.writeRefused (c : Settings) (k : Key) (v : Nat) : Bool :=
  (Settings.rangeLink k).isSome && !(c.written k v).rangesValid

/-- WRITE SETTING, with its tests in order (R187, R188, R191). -/
def ownWriteSetting (key : Byte) (value : BitVec 16) (s : State) : Owned :=
  match parseKey key with
  | none => s.refuse .badArgument
  | some k =>
    if writableIn k s.heat.state = false then s.refuse .wrongState
    else if s.profile.isSaving then s.refuse .busy
    else if s.settings.writeRefused k value.toNat then s.refuse .badArgument
    else
      (s.changeSettings (s.settings.written k value.toNat),
        Answer.just (if s.settings.writeClamps k value.toNat then .clamped else .done))

def execWriteSetting (key : Byte) (value : BitVec 16) (s : State) : Host.Outcome State Fault Refusal :=
  s.receive (.writeSetting key value) (ownWriteSetting key value)

/-- SAVE PROFILE, with PROFILE_WP at the given level (R190). -/
def ownSaveProfile (wp : Bool) (s0 : State) : Owned :=
  let s : State := { s0 with profileWp := wp }
  if s.heat.state ≠ .idle then s.refuse .wrongState
  else if s.profile.isSaving then s.refuse .busy
  else if wp = false then s.refuse .locked
  else ({ s with profile := .saving (imageOf s.settings) s.trackTime } : State).succeed

def execSaveProfile (wp : Bool) (s : State) : Host.Outcome State Fault Refusal :=
  s.receive (.saveProfile wp) (ownSaveProfile wp)

/-- PROFILE_SAVE_COMPLETE: the profile holds the image, the state becomes READY and PROFILE_DONE is raised (R190). With no
save in progress there is none to complete. -/
def execProfileSaveComplete (s : State) : Host.Outcome State Fault Refusal :=
  match s.profile with
  | .saving image _ => .next (({ s with nvm := image, profile := .ready } : State).raise .profileDone)
  | _ => .next s

/-- LOAD PROFILE (R192). -/
def ownLoadProfile (s : State) : Owned :=
  if s.heat.state ≠ .idle then s.refuse .wrongState
  else if s.profile.isSaving then s.refuse .busy
  else s.loadProfile.succeed

def execLoadProfile (s : State) : Host.Outcome State Fault Refusal := s.receive .loadProfile ownLoadProfile

end Sys2Proof.Machine
end

