-- ==== Sys2Proof/Machine/BlockLinks.lean ====
section
/-! DEFINITION. The link receivers (03_block_links.md): alignment, loss, frames and READ LINK. -/

namespace Sys2Proof.Machine

/-- SEARCH_WORD_FOUND: in SEARCH, 16 bits equal to the alignment word take the receiver to CONFIRM, with the frame position one
frame on (R53). -/
def execSearchWordFound (link : LinkId) (bits : BitVec 16) (s : State) : Host.Outcome State Fault Refusal :=
  if !s.inReset && (s.link link).align == .search && bits == Config.alignmentWord then
    .next (s.withLink link { s.link link with
      align := .confirm, framePos := some (stampAdd s.trackTime Config.framePeriod), confirmCount := 0 })
  else .next s

/-- The link-lost indication to the lane of each mapped, unclosed slot (R66). -/
def lossIndication (c : Settings) (h : HeatState) (link : LinkId) (i : LaneNo) (l : Lane) : Lane × Option LaneReport :=
  if (c.slotOf link i).isSome then l.linkLost h else (l, none)

/-- A link leaves LOCKED: SEARCH, a loss counted, its lanes told, the permit evaluated with the lanes' change (R55, R66, R83). -/
def State.loseLink (s : State) (link : LinkId) : State :=
  ((s.withLink link (s.link link).lose).takeReports (lossIndication s.settings s.heat.state link)).settlePermit

/-- A frame whose position is `p` begins to be delivered; its sample time is its stamp less the link's latency (R59). -/
def frameAt (c : Settings) (link : LinkId) (p : Stamp) (good : Bool) : FrameInProgress :=
  ⟨p, p - BitVec.ofNat 32 (c.latency link), good⟩

/-- The receiver at a frame position `p` in CONFIRM (R54, R58). That the confirm count is 0 once LOCKED is entered is the model's
choice (log 28): Table 3-3 allows 0..2 and R54 counts to 3. -/
def LinkRx.confirmAt (c : Settings) (link : LinkId) (p : Stamp) (bits : BitVec 16) (r : LinkRx) : LinkRx :=
  if bits ≠ Config.alignmentWord then r.enterSearch
  else if r.confirmCount + 1 < 3 then
    { r with confirmCount := r.confirmCount + 1, framePos := some (stampAdd p Config.framePeriod) }
  else
    { r.clearSequences with
      align := .locked, framePos := some (stampAdd p Config.framePeriod), confirmCount := 0, erroredCount := 0,
      frame := some (frameAt c link p true) }

/-- The receiver at a frame position `p` in LOCKED, when it stays LOCKED (R55, R56): `good` says that the word was equal,
`errored` is the errored-word count after. -/
def LinkRx.frameBegins (c : Settings) (link : LinkId) (p : Stamp) (good : Bool) (errored : Nat) (r : LinkRx) : LinkRx :=
  { r with
    framePos := some (stampAdd p Config.framePeriod), erroredCount := errored, frame := some (frameAt c link p good) }

/-- A frame position in LOCKED (R55, R56). -/
def State.lockedAt (s : State) (link : LinkId) (p : Stamp) (silent : Bool) (bits : BitVec 16) : State :=
  let r := s.link link
  if silent then s.withLink link (r.frameBegins s.settings link p false r.erroredCount)
  else if bits = Config.alignmentWord then s.withLink link (r.frameBegins s.settings link p true 0)
  else if r.erroredCount + 1 < 3 then s.withLink link (r.frameBegins s.settings link p false (r.erroredCount + 1))
  else s.loseLink link

/-- FRAME_POSITION: taken when track time has reached the frame position and the frame before it has arrived (R54, R55, R59,
log 9). Entering LOCKED is an input of the permit (R83). -/
def execFramePosition (link : LinkId) (silent : Bool) (bits : BitVec 16) (s : State) : Host.Outcome State Fault Refusal :=
  match (s.link link).framePos with
  | none => .next s
  | some p =>
    if s.inReset || !reached p s.trackTime || (s.link link).frame.isSome then .next s
    else
      match (s.link link).align with
      | .confirm => .next ((s.withLink link ((s.link link).confirmAt s.settings link p bits)).settlePermit)
      | .locked => .next (s.lockedAt link p silent bits)
      | _ => .next s

/-- A link is silent: LOCKED, with 20 units passed since the last transition (R56). -/
def State.linkSilent (s : State) (link : LinkId) : Bool :=
  (s.link link).align == .locked && reached (stampAdd (s.link link).lastTransition Config.silenceLimit) s.trackTime

/-- LINK_SILENCE (R56). -/
def execLinkSilence (link : LinkId) (s : State) : Host.Outcome State Fault Refusal :=
  if s.linkSilent link then .next (s.loseLink link) else .next s

/-- The outcome of one slot of a frame: tested in a frame with a good word, held otherwise (R62, R65). -/
def slotOutcome (f : FrameInProgress) (r : LinkRx) (slots : Vector (BitVec 40) 6) (k : Fin 6) : SlotOutcome :=
  if f.good then judgeSlot r.prevSeq[k] slots[k] else heldSlot r.prevSeq[k]

/-- The six slots. -/
def allSlots : List (Fin 6) := [0, 1, 2, 3, 4, 5]

/-- The receiver after a frame's arrival: previous sequences and counters of the mapped, unclosed slots (R60, R62, R63, R70). -/
def LinkRx.arrived (c : Settings) (link : LinkId) (f : FrameInProgress) (slots : Vector (BitVec 40) 6) (r : LinkRx) : LinkRx :=
  let o := slotOutcome f r slots
  { r with
    frame := none
    prevSeq := Vector.ofFn fun k => if c.mapped link k then (o k).prev else r.prevSeq[k]
    checkFailures := saturating 65535 r.checkFailures (allSlots.countP fun k => c.mapped link k && (o k).checkFailed)
    seqFaults := saturating 65535 r.seqFaults (allSlots.countP fun k => c.mapped link k && (o k).sequenceFault) }

/-- One sample to the lane of each mapped, unclosed slot (R61). -/
def sampleDelivery (s : State) (link : LinkId) (f : FrameInProgress) (slots : Vector (BitVec 40) 6) (i : LaneNo) (l : Lane) :
    Lane × Option LaneReport :=
  match s.settings.slotOf link i with
  | none => (l, none)
  | some k =>
    l.takeSample s.settings s.heat.state s.heat.gunStamp i ⟨f.sampleTime, (slotOutcome f (s.link link) slots k).force⟩

/-- A frame is delivered: all its lanes take their samples, their reports are taken, and the permit is evaluated once (R61,
R40, R83). -/
def State.deliver (s : State) (link : LinkId) (f : FrameInProgress) (slots : Vector (BitVec 40) 6) : State :=
  ((s.withLink link ((s.link link).arrived s.settings link f slots)).takeReports (sampleDelivery s link f slots)).settlePermit

/-- FRAME_ARRIVAL: the last bit of lane slot 6 of the frame in progress is received (R59, R61). -/
def execFrameArrival (link : LinkId) (slots : Vector (BitVec 40) 6) (s : State) : Host.Outcome State Fault Refusal :=
  match (s.link link).frame with
  | none => .next s
  | some f =>
    if !s.inReset && reached (stampAdd f.stamp Config.frameArrivalDelay) s.trackTime then .next (s.deliver link f slots)
    else .next s

/-- LINE_TRANSITION: the line changes level; in every state other than DISABLED its track time is noted (R56). -/
def execLineTransition (link : LinkId) (s : State) : Host.Outcome State Fault Refusal :=
  let r := s.link link
  .next (s.withLink link { r with
    lineHigh := !r.lineHigh
    lastTransition := if s.inReset || r.align == .disabled then r.lastTransition else s.trackTime })

/-- READ LINK: the four values are copied, and the counters cleared if asked (R71). -/
def ownReadLink (link clear : Byte) (s : State) : Owned :=
  match parseLink link, parseClear clear with
  | some l, some c =>
    let copy := linkBytes (s.link l)
    if c then (s.withLink l { s.link l with checkFailures := 0, seqFaults := 0, losses := 0 }).answerRead copy
    else s.answerRead copy
  | _, _ => s.refuse .badArgument

def execReadLink (link clear : Byte) (s : State) : Host.Outcome State Fault Refusal :=
  s.receive (.readLink link clear) (ownReadLink link clear)

end Sys2Proof.Machine
end

