-- ==== Sys2Proof/Machine/Judgement.lean ====
section
/-! DEFINITION. The judgement unit (07_judgement_and_charges.md): classification, culprits, charges, outcome, report, and the
stand-up report. -/

namespace Sys2Proof.Machine

/-- The class of a lane judged (Table 7-2). -/
inductive LaneClass where
  | clean (rt : Int)
  | noReaction
  | falseLane (rt : Int)
  | unsure
  deriving DecidableEq, Repr

/-- Classification by the phase at the close and the current RT (R131). The rows that the manual says do not occur, a
REACTED or MOVED lane with no RT and the phases SETTLED and OFF, are classed UNSURE (log 16). -/
def Lane.classify (c : Settings) (l : Lane) : LaneClass :=
  match l.phase, l.rt with
  | .reacted, some rt => if isFalse c rt then .falseLane rt else .clean rt
  | .moved, some rt => .falseLane rt
  | .waiting, _ => .noReaction
  | _, _ => .unsure

/-- The RT of a lane judged false. -/
def LaneClass.falseRt : LaneClass → Option Int
  | .falseLane rt => some rt
  | _ => none

/-- The class of a lane, for the lanes judged: those eligible to start (R129, R131). -/
def State.classOf (s : State) (i : LaneNo) : Option LaneClass :=
  if s.lanes[i].eligible then some (s.lanes[i].classify s.settings) else none

/-- The RT of a false lane of the attempt (R133). -/
def State.falseRt (s : State) (i : LaneNo) : Option Int := (s.classOf i).bind LaneClass.falseRt

/-- The earliest false RT of the attempt: the smallest RT of the false lanes (R133). -/
def State.earliestFalse (s : State) : Option Int := (allLanes.filterMap s.falseRt).min?

/-- A culprit: a false lane whose RT is at most the earliest false RT plus TIE_TOLERANCE (R133). -/
def State.isCulprit (s : State) (i : LaneNo) : Bool :=
  match s.falseRt i, s.earliestFalse with
  | some rt, some e => decide (rt ≤ e + s.settings.tieTolerance)
  | _, _ => false

/-- A provoked lane: a false lane that is not a culprit (R133). -/
def State.isProvoked (s : State) (i : LaneNo) : Bool := (s.falseRt i).isSome && !s.isCulprit i

def State.culprits (s : State) : List LaneNo := allLanes.filter s.isCulprit
def State.provoked (s : State) : List LaneNo := allLanes.filter s.isProvoked

/-- The lanes judged whose class is UNSURE (R142). -/
def State.unsureLanes (s : State) : List LaneNo := allLanes.filter fun i => s.classOf i == some .unsure

/-- The lanes judged whose phase is MOVED (R142, R146). -/
def State.movers (s : State) : List LaneNo := allLanes.filter fun i => s.lanes[i].eligible && s.lanes[i].phase == .moved

/-- The kind of the result of a lane judged (R132). -/
def State.resultKind (s : State) (i : LaneNo) (k : LaneClass) : ResultKind :=
  match k with
  | .clean rt => .clean rt
  | .noReaction => .noReaction
  | .falseLane rt => if s.isCulprit i then .culprit rt else .provoked rt
  | .unsure => .unsure

/-- The provisional flag: the lane's baseline kind at the close is PROVISIONAL (R132). -/
def Lane.provisional (l : Lane) : Bool := l.baseline.any fun b => b.kind == .provisional

/-- The charge that the policy calls for, for a culprit of the given standing (R136, R137, R138, Table 7-3). -/
def sensedEffect (policy : Policy) (warned : Bool) (standing : Standing) : Option Effect :=
  match policy with
  | .individual => some .disqualify
  | .field => if warned then some .disqualify else none
  | .caution => if standing = .eligible then some .caution else some .disqualify

/-- The policy applied to a culprit's entry (R135). -/
def Entry.senseCharge (policy : Policy) (warned : Bool) (attempt : Nat) (rt : Int) (e : Entry) : Entry :=
  match sensedEffect policy warned e.standing with
  | none => e
  | some effect => e.charge attempt effect (.sensed rt)

/-- Stages 4 and 5 of a close for one lane: its result, then its charge when it is a culprit (R130, R135, R140). -/
def State.judgeLane (s : State) (i : LaneNo) (l : Lane) : Lane :=
  match s.classOf i with
  | none => l
  | some k =>
    l.changeEntry fun e =>
      let judged := { e with result := some ⟨s.resultKind i k, l.provisional⟩ }
      match s.heat.id, k.falseRt with
      | some d, some rt =>
        if s.isCulprit i then judged.senseCharge d.policy s.heat.warning.isSome s.heat.attempt rt else judged
      | _, _ => judged

/-- The field warning after a close: created under FIELD policy when there are culprits and the heat holds none (R137). -/
def State.warningAfter (s : State) : Option FieldWarning :=
  match s.heat.warning with
  | some w => some w
  | none =>
    if s.heat.id.any (fun d => d.policy == .field) && !s.culprits.isEmpty then some ⟨s.heat.attempt, s.culprits, false⟩ else none

/-- The outcome of an attempt (R141). A FALSE_START recall with no culprit, which the manual says does not occur, is read as
EQUIPMENT_RECALL (log 16). -/
def outcomeOf (culprits : List LaneNo) (issued : Option RecallRecord) : AttemptOutcome :=
  if culprits.isEmpty then
    match issued.map RecallRecord.cause with
    | none => .clean
    | some .starter => .starterRecall
    | some _ => .equipmentRecall
  else .falseStart

/-- The outcome decided at a close (R141). -/
def State.outcome (s : State) : AttemptOutcome := outcomeOf s.culprits s.heat.issued

/-- The attempt report of a close (R142). -/
def State.closeReport (s : State) : Report where
  attempt := s.heat.attempt
  outcome := s.outcome
  gunStamp := s.heat.gunStamp
  recallCause := s.heat.issued.map RecallRecord.cause
  culprits := s.culprits
  provoked := s.provoked
  unsure := s.unsureLanes
  movers := s.movers
  earliest := s.earliestFalse

/-- The judgement at close, stages 1 to 7 (R130). -/
def State.judge (s : State) : State :=
  ((s.mapLanes s.judgeLane).withHeat { s.heat with warning := s.warningAfter }).withReport (some s.closeReport)

/-- The stand-up report (R146). -/
def State.standUpReport (s : State) : Report where
  attempt := s.heat.attempt
  outcome := .stoodUp
  gunStamp := none
  recallCause := none
  culprits := []
  provoked := []
  unsure := []
  movers := s.movers
  earliest := none

/-- The judgement at a stand-up: every lane judged is given NOT_STARTED (R146). -/
def State.judgeStandUp (s : State) : State :=
  (s.mapLanes fun _ l =>
      if l.eligible then l.changeEntry fun e => { e with result := some ⟨.notStarted, false⟩ } else l).withReport
    (some s.standUpReport)

end Sys2Proof.Machine
end

