-- ==== Sys2Proof/Machine/HeatSequence.lean ====
section
/-! DEFINITION. The heat controller's commands and timers (02_heat_sequence.md). -/

namespace Sys2Proof.Machine

/-- The effects of CALL MARKS (R28), with every charge entry and the field warning made final (R160). -/
def State.beginAttempt (s : State) : State :=
  (s.mapLanes fun _ l => (l.attemptCleared).changeEntry Entry.finalize).withHeat
    { s.heat with
      state := .marks, attempt := s.heat.attempt + 1, gunStamp := none, issued := none, closeTime := none,
      deadlineTime := none, warning := s.heat.warning.map fun w => { w with final := true } }

/-- CALL MARKS, with its tests in order (R27). -/
def ownCallMarks (s : State) : Owned :=
  if s.heat.state ≠ .roster ∧ s.heat.state ≠ .review then s.refuse .wrongState
  else if s.anyEligible = false then s.refuse .noLanes
  else if Config.attemptLimit ≤ s.heat.attempt then s.refuse .limit
  else s.beginAttempt.succeed

def execCallMarks (s : State) : Host.Outcome State Fault Refusal := s.receive .callMarks ownCallMarks

/-- The heat enters SET and every lane eligible to start begins settling; the permit is evaluated (R31, R83). -/
def State.setField (s : State) : State :=
  ((s.mapLanes fun _ l => if l.eligible then l.attemptSet else l).withHeat { s.heat with state := .set }).settlePermit

/-- CALL SET, with its tests in order (R31). -/
def ownCallSet (s : State) : Owned :=
  if s.heat.state ≠ .marks then s.refuse .wrongState
  else if s.anyEligible = false then s.refuse .noLanes
  else s.setField.succeed

def execCallSet (s : State) : Host.Outcome State Fault Refusal := s.receive .callSet ownCallSet

/-- The attempt-ended indication to every lane of the attempt (R26). -/
def State.endAttempt (s : State) : State := s.mapLanes fun _ l => if l.eligible then l.attemptEnded else l

/-- The effects of STAND UP, in order (R33); the permit falls as the heat leaves SET (R84). -/
def State.standField (s : State) : State :=
  let t := s.endAttempt.judgeStandUp
  ((t.withHeat { t.heat with state := .review }).raise .attemptClosed).settlePermit

/-- STAND UP (R33). -/
def ownStandUp (s : State) : Owned :=
  if s.heat.state = .marks ∨ s.heat.state = .set then s.standField.succeed else s.refuse .wrongState

def execStandUp (s : State) : Host.Outcome State Fault Refusal := s.receive .standUp ownStandUp

/-- RECALL by heat state (R43). -/
def ownRecall (s : State) : Owned :=
  match s.heat.state with
  | .watch => s.starterRecall.succeed
  | .running => s.starterRecall.succeed
  | .done => s.refuse .tooLate
  | _ => s.refuse .wrongState

def execRecall (s : State) : Host.Outcome State Fault Refusal := s.receive .recall ownRecall

/-- A timer has expired: it is armed, and track time has reached it (R24). -/
def timerDue (timer : Option Stamp) (now : Stamp) : Bool :=
  match timer with
  | none => false
  | some t => reached t now

/-- The deadline expiry in RUNNING (R46). -/
def State.passDeadline (s : State) : State :=
  (s.withHeat { s.heat with deadlineTime := none, state := .done }).raise .deadlinePassed

/-- The heat leaves WATCH by the outcome of the report just written: RUNNING for CLEAN, else REVIEW with the deadline
cancelled (R45). -/
def State.leaveWatch (s : State) (outcome : AttemptOutcome) : State :=
  if outcome = .clean then s.withHeat { s.heat with state := .running }
  else s.withHeat { s.heat with state := .review, deadlineTime := none }

/-- The close, steps 1 to 5 (R44), and a deadline already expired, which takes RUNNING on to DONE within the close (R46). -/
def State.closeAttempt (s : State) : State :=
  let t := (s.withHeat { s.heat with closeTime := none }).endAttempt
  let u := (t.judge.leaveWatch t.outcome).raise .attemptClosed
  if u.heat.state = .running ∧ timerDue u.heat.deadlineTime u.trackTime then u.passDeadline else u

/-- CLOSE_EXPIRY: taken in WATCH when track time has reached the close time (R44). -/
def execCloseExpiry (s : State) : Host.Outcome State Fault Refusal :=
  if s.heat.state = .watch ∧ timerDue s.heat.closeTime s.trackTime then .next s.closeAttempt else .next s

/-- DEADLINE_EXPIRY: taken in RUNNING when track time has reached the deadline; held in WATCH until the close (R46). -/
def execDeadlineExpiry (s : State) : Host.Outcome State Fault Refusal :=
  if s.heat.state = .running ∧ timerDue s.heat.deadlineTime s.trackTime then .next s.passDeadline else .next s

/-- PULSE_END: track time reaches the pulse end, and RECALL_OUT goes low (R41). -/
def execPulseEnd (s : State) : Host.Outcome State Fault Refusal :=
  if timerDue s.heat.pulseEnd s.trackTime then .next (s.withHeat { s.heat with pulseEnd := none }) else .next s

end Sys2Proof.Machine
end

