-- ==== Sys2Proof/Machine/GunCapture.lean ====
section
/-! DEFINITION. The gun capture block (04_track_time_and_the_start_gun.md) and the accepted gun in every heat state. -/

namespace Sys2Proof.Machine

/-- GUN_EDGE: the line goes from high to low. Watching, the block begins a qualification; locked out, it ignores the edge
(R76, R77, R80). An edge needs a line that is high (log 3). -/
def execGunEdge (s : State) : Host.Outcome State Fault Refusal :=
  if s.gun.lineLow then .next s
  else if s.inReset || s.gun.qualification.isSome || s.gun.lockoutEnd.isSome then .next (s.withGun { s.gun with lineLow := true })
  else
    .next (s.withGun { s.gun with
      lineLow := true, qualification := some ⟨s.trackTime, s.settings.gunQualify⟩ })

/-- GUN_RELEASE: the line goes from low to high. A qualification in progress ends as a glitch (R79). -/
def execGunRelease (s : State) : Host.Outcome State Fault Refusal :=
  if s.gun.lineLow = false then .next s
  else if s.gun.qualification.isSome then
    .next ((s.withGun { s.gun with lineLow := false, qualification := none }).raise .gunGlitch)
  else .next (s.withGun { s.gun with lineLow := false })

/-- The gun-accepted indication to one lane, when it is a lane of the attempt (R26, R103, R120). -/
def gunIndication (c : Settings) (gun : Stamp) (i : LaneNo) (l : Lane) : Lane × Option LaneReport :=
  if l.eligible then l.gunAccepted c i gun else (l, none)

/-- A gun accepted in SET starts the attempt, in the order of R35; movers report false onsets, and the permit falls (R36, R84). -/
def State.startAttempt (s : State) (gun : Stamp) : State :=
  ((s.withHeat { s.heat with
      state := .watch, gunStamp := some gun, closeTime := some (stampAdd gun s.settings.closeDelay),
      deadlineTime := some (stampAdd gun s.settings.recallDeadline) }).takeReports (gunIndication s.settings gun)).settlePermit

/-- The gun-accepted event at the heat controller, by heat state (R35, R37, R38, R81). -/
def State.takeGun (s : State) (gun : Stamp) : State :=
  match s.heat.state with
  | .set => s.startAttempt gun
  | .watch => s.starterRecall
  | .running => s.starterRecall
  | _ => s.raise .gunOutOfTurn

/-- The acceptance of a qualified edge, steps 1 to 4 (R78). -/
def State.acceptGun (s : State) (q : Qualification) : State :=
  (s.withGun { s.gun with
    qualification := none, lastAccepted := some q.edge,
    lockoutEnd := some (stampAdd q.edge s.settings.gunLockout) }).takeGun q.edge

/-- A qualification has run its period with the line still low (R78). -/
def State.qualified (s : State) (q : Qualification) : Bool := s.gun.lineLow && reached (stampAdd q.edge q.period) s.trackTime

/-- GUN_ACCEPTANCE (R78). -/
def execGunAcceptance (s : State) : Host.Outcome State Fault Refusal :=
  match s.gun.qualification with
  | none => .next s
  | some q => if s.qualified q then .next (s.acceptGun q) else .next s

/-- LOCKOUT_END: track time reaches the lockout end, and the block is watching again (R80). -/
def execLockoutEnd (s : State) : Host.Outcome State Fault Refusal :=
  if timerDue s.gun.lockoutEnd s.trackTime then .next (s.withGun { s.gun with lockoutEnd := none }) else .next s

end Sys2Proof.Machine
end

