-- ==== Sys2Proof/Machine/Time.lean ====
section
/-! DEFINITION. The passing of track time (04, R74), and the events that time brings while no command waits (log 1, log 2). -/

namespace Sys2Proof.Machine

/-- The bits of a line that stays at one level: what a line carries while no transition of it waits in the queue (log 7). -/
def stillBits (high : Bool) (w : Nat) : BitVec w := if high then BitVec.allOnes w else 0

/-- A frame in progress has arrived: five units after its stamp, at the latest (R59, log 9). -/
def State.arrivalDue (s : State) (link : LinkId) : Bool :=
  match (s.link link).frame with
  | none => false
  | some f => reached (stampAdd f.stamp Config.framePeriod) s.trackTime

/-- A frame position has been reached, and the frame before it has arrived (R54, R55). -/
def State.positionDue (s : State) (link : LinkId) : Bool := timerDue (s.link link).framePos s.trackTime && (s.link link).frame.isNone

/-- No transition of the line since one frame before: the frame is silent (R56, log 7). -/
def State.stillSince (s : State) (link : LinkId) : Bool :=
  reached (stampAdd (s.link link).lastTransition Config.framePeriod) s.trackTime

/-- The event of a link that track time has brought, on a line that stays at its level (log 7). -/
def State.linkEventDue (s : State) (link : LinkId) : Option Instr :=
  if s.arrivalDue link then some (.frameArrival link (Vector.replicate 6 (stillBits (s.link link).lineHigh 40)))
  else if s.linkSilent link then some (.linkSilence link)
  else if s.positionDue link then some (.framePosition link (s.stillSince link) (stillBits (s.link link).lineHigh 16))
  else none

/-- The gun's qualification has run its period (R78). -/
def State.acceptanceDue (s : State) : Bool := s.gun.qualification.any s.qualified

/-- A save has taken its 400 units (R190). -/
def State.saveDue (s : State) : Bool :=
  match s.profile with
  | .saving _ since => reached (stampAdd since Config.saveLimit) s.trackTime
  | _ => false

/-- The event that track time has brought, the first of a fixed order; none when no event is due (log 2). -/
def State.dueEvent (s : State) : Option Instr :=
  if s.inReset then none
  else if timerDue s.heat.pulseEnd s.trackTime then some .pulseEnd
  else if s.saveDue then some .profileSaveComplete
  else if timerDue s.gun.lockoutEnd s.trackTime then some .lockoutEnd
  else if s.acceptanceDue then some .gunAcceptance
  else if (s.linkEventDue .a).isSome then s.linkEventDue .a
  else if (s.linkEventDue .b).isSome then s.linkEventDue .b
  else if s.heat.state = .watch ∧ timerDue s.heat.closeTime s.trackTime then some .closeExpiry
  else if s.heat.state = .running ∧ timerDue s.heat.deadlineTime s.trackTime then some .deadlineExpiry
  else none

/-- One unit of track time passes; none passes while a full reset lasts (R74). -/
def State.passUnit (s : State) : State := if s.inReset then s else { s with trackTime := stampAdd s.trackTime 1 }

end Sys2Proof.Machine
end

