-- ==== Sys2Proof/Machine/Dispatch.lean ====
section
/-! DEFINITION. One arm per command: exec sends each to its own meaning. -/

namespace Sys2Proof.Machine

def exec (i : Instr) (s : State) : Host.Outcome State Fault Refusal :=
  match i with
  | .readStatus => Sys2Proof.Machine.execReadStatus s
  | .resetEnable => Sys2Proof.Machine.execResetEnable s
  | .softReset => Sys2Proof.Machine.execSoftReset s
  | .softResetAction moment => Sys2Proof.Machine.execSoftResetAction moment s
  | .fullReset => Sys2Proof.Machine.execFullReset s
  | .takeNotice => Sys2Proof.Machine.execTakeNotice s
  | .noticeDone ceiling => Sys2Proof.Machine.execNoticeDone ceiling s
  | .clearNotice source => Sys2Proof.Machine.execClearNotice source s
  | .setNoticeLevel source level => Sys2Proof.Machine.execSetNoticeLevel source level s
  | .readNotices => Sys2Proof.Machine.execReadNotices s
  | .readSetting key => Sys2Proof.Machine.execReadSetting key s
  | .writeSetting key value => Sys2Proof.Machine.execWriteSetting key value s
  | .saveProfile wp => Sys2Proof.Machine.execSaveProfile wp s
  | .profileSaveComplete => Sys2Proof.Machine.execProfileSaveComplete s
  | .loadProfile => Sys2Proof.Machine.execLoadProfile s
  | .openHeat number policy => Sys2Proof.Machine.execOpenHeat number policy s
  | .closeHeat => Sys2Proof.Machine.execCloseHeat s
  | .enterLane lane bib => Sys2Proof.Machine.execEnterLane lane bib s
  | .vacateLane lane => Sys2Proof.Machine.execVacateLane lane s
  | .withdrawLane lane => Sys2Proof.Machine.execWithdrawLane lane s
  | .findBib bib => Sys2Proof.Machine.execFindBib bib s
  | .readLane lane => Sys2Proof.Machine.execReadLane lane s
  | .readRoster start => Sys2Proof.Machine.execReadRoster start s
  | .streamRecordCopy => Sys2Proof.Machine.execStreamRecordCopy s
  | .readHeat => Sys2Proof.Machine.execReadHeat s
  | .readAttempt => Sys2Proof.Machine.execReadAttempt s
  | .callMarks => Sys2Proof.Machine.execCallMarks s
  | .callSet => Sys2Proof.Machine.execCallSet s
  | .standUp => Sys2Proof.Machine.execStandUp s
  | .recall => Sys2Proof.Machine.execRecall s
  | .imposeCharge lane effect => Sys2Proof.Machine.execImposeCharge lane effect s
  | .rescindCharge lane => Sys2Proof.Machine.execRescindCharge lane s
  | .rescindFieldWarning => Sys2Proof.Machine.execRescindFieldWarning s
  | .readLink link clear => Sys2Proof.Machine.execReadLink link clear s
  | .transactionStart => Sys2Proof.Machine.execTransactionStart s
  | .unknownCommandCode code => Sys2Proof.Machine.execUnknownCommandCode code s
  | .transactionEnd => Sys2Proof.Machine.execTransactionEnd s
  | .transactionDiscard => Sys2Proof.Machine.execTransactionDiscard s
  | .gunEdge => Sys2Proof.Machine.execGunEdge s
  | .gunRelease => Sys2Proof.Machine.execGunRelease s
  | .gunAcceptance => Sys2Proof.Machine.execGunAcceptance s
  | .lockoutEnd => Sys2Proof.Machine.execLockoutEnd s
  | .closeExpiry => Sys2Proof.Machine.execCloseExpiry s
  | .deadlineExpiry => Sys2Proof.Machine.execDeadlineExpiry s
  | .pulseEnd => Sys2Proof.Machine.execPulseEnd s
  | .searchWordFound link bits => Sys2Proof.Machine.execSearchWordFound link bits s
  | .framePosition link silent bits => Sys2Proof.Machine.execFramePosition link silent bits s
  | .linkSilence link => Sys2Proof.Machine.execLinkSilence link s
  | .frameArrival link slots => Sys2Proof.Machine.execFrameArrival link slots s
  | .lineTransition link => Sys2Proof.Machine.execLineTransition link s
  | .fullResetEnd selectHigh => Sys2Proof.Machine.execFullResetEnd selectHigh s

end Sys2Proof.Machine
end

