-- ==== Sys2Proof/Machine/PortEdges.lean ====
section
/-! DEFINITION. The pins of the command port, edge by edge (R174, R175): the bits sampled from SDI, the bytes they complete, the
command those bytes spell, and what the falling edges of SCK begin and end. Each event of a transaction is the table's row of
that event. -/

namespace Sys2Proof.Machine

/-- A bit sampled from SDI at bit `n` of byte position `k`: the eighth completes the byte position (R175). -/
def Port.sample (p : Port) (sdi : Bool) (n k : Nat) : Port :=
  { p with
    shift := p.shift.shiftConcat sdi
    bitCount := some (if n < 7 then n + 1 else 0)
    bytePos := some (if n < 7 then k else k + 1) }

/-- The bytes received in Collecting, the byte just completed among them: code first (R174). -/
def Port.bytesReceived (p : Port) : List Byte := p.code.toList ++ p.argsReceived.getD [] ++ [p.shift]

/-- A byte completes in Collecting. A last argument byte, or the code byte of a command without arguments, takes the command
(R176); a code byte that names no command puts the port in Ignoring (R179); any other byte is kept (R174). -/
def State.byteReceived (s : State) : Host.Outcome State Fault Refusal :=
  match decodeCommand s.profileWp s.port.bytesReceived with
  | some i => exec i s
  | none =>
    match s.port.bytesReceived with
    | [] => .next s
    | code :: args =>
      if (argumentCount code).isSome then .next (s.withPort { s.port with code := some code, argsReceived := some args })
      else exec (.unknownCommandCode code) s

/-- A rising edge of SCK. It is counted while select is low (R175), and in Collecting the byte it completes is received. -/
def State.sckRises (s : State) (sdi : Bool) : Host.Outcome State Fault Refusal :=
  match s.sdoDriven, s.port.bitCount, s.port.bytePos with
  | true, some n, some k =>
    let t := s.withPort (s.port.sample sdi n k)
    if n < 7 ∨ s.port.phase ≠ .collecting then .next t else t.byteReceived
  | _, _, _ => .next s

/-- A falling edge of SCK between two byte positions, `k` the one that begins, while a response is sent. The end of the result
byte is a moment at which an armed soft reset acts (R184). The first byte of a stream's first record begins Streaming (R174),
and with the first byte of a later record that record is copied (R181). -/
def State.byteBegins (s : State) (r : Response) (k : Nat) : Host.Outcome State Fault Refusal :=
  if s.port.softArmed ∧ k = r.resultPos + 1 then exec (.softResetAction .resultByteEnd) s
  else if r.stream.isSome ∧ k = r.copyPos then .next (s.withPort { s.port with phase := .streaming })
  else if r.stream.isSome ∧ k = r.copyPos + r.copy.length then exec .streamRecordCopy s
  else .next s

/-- A falling edge of SCK (R175). Within a byte position it only moves SDO (`State.sdo`). -/
def State.sckFalls (s : State) : Host.Outcome State Fault Refusal :=
  match s.sdoDriven, s.port.response, s.port.bitCount, s.port.bytePos with
  | true, some r, some 0, some k => s.byteBegins r k
  | _, _, _, _ => .next s

/-- The transaction's command is not taken: its end is a discard (R179). -/
def Port.untaken (p : Port) : Bool := p.phase == .collecting || p.phase == .ignoring .unknownCode

/-- An edge at a pin is taken (R174, R175, R178, R179). SCK has an edge only where its level changes; while select is high or a
full reset lasts, only its level is followed (R185). -/
def State.takeEdge (s : State) : PinEdge → Host.Outcome State Fault Refusal
  | .selectFall => exec .transactionStart s
  | .selectRise => if s.port.untaken then exec .transactionDiscard s else exec .transactionEnd s
  | .sckRise sdi => if s.sckHigh then .next s else State.sckRises { s with sckHigh := true } sdi
  | .sckFall => if s.sckHigh then State.sckFalls { s with sckHigh := false } else .next s
  | .profileWp high => .next { s with profileWp := high }

/-- Edges taken one after another, until one stops. -/
def State.takeEdges (s : State) : List PinEdge → Host.Outcome State Fault Refusal
  | [] => .next s
  | e :: es =>
    match s.takeEdge e with
    | .next t => t.takeEdges es
    | o => o

/-- The edges with which a host clocks a byte in, most significant bit first (R175). -/
def byteEdges (x : Byte) : List PinEdge := (byteBits x).flatMap fun b => [.sckRise b, .sckFall]

end Sys2Proof.Machine
end

