-- ==== Sys2Proof/Machine/Step.lean ====
section
/-! DEFINITION. One step of the block. -/

namespace Sys2Proof.Machine

/-- One step: the command at the front of the queue is executed with the queue's rest. On an empty queue the block takes the
event that track time has brought, or else the edge that waits at the port's pins (R174, R175, log 27), or else one unit of
track time passes (R74, log 1, log 2). -/
def step (s : State) : Host.Outcome State Fault Refusal :=
  match s.pending with
  | c :: rest => exec c { s with pending := rest }
  | [] =>
    match s.dueEvent with
    | some e => exec e s
    | none =>
      match s.edges with
      | e :: rest => State.takeEdge { s with edges := rest } e
      | [] => .next s.passUnit

/-- The state with the command that a table word spells at the front of its queue; no row of the table has bits, so no word
spells one. -/
def State.withFetchWord (s : State) (nbits w : Nat) : State :=
  match decodeTableWord nbits w with
  | some c => { s with pending := c :: s.pending }
  | none => s

end Sys2Proof.Machine
end

