-- ==== Sys2Proof/Safety.lean ====
section
/-! DEFINITION. The laws of the device that claims use: predicates over one state, each from the rule that states the law. -/

namespace Sys2Proof.Machine

/-- No attempt has been called: the states in which settings may be written (R186, R29). -/
def HeatState.early (h : HeatState) : Prop := h = .idle ∨ h = .roster

/-- An attempt is in progress (R29). -/
def HeatState.inAttempt (h : HeatState) : Prop := h = .marks ∨ h = .set ∨ h = .watch

/-- A start that was judged clean and not recalled (R45). -/
def HeatState.stood (h : HeatState) : Prop := h = .running ∨ h = .done

namespace State

/-- R186, R188, R191: every working value lies within its range, the link ranges are as a write must leave them, and while a save
is in progress the heat is in IDLE and the image is that of the working settings. -/
structure SettingsLaw (s : State) : Prop where
  range : ∀ k : Key, settingTable[k].lo ≤ s.settings.vals[k] ∧ s.settings.vals[k] ≤ settingTable[k].hi
  links : ∀ l : LinkId, s.settings.first l ≠ 0 →
    s.settings.first l ≤ s.settings.last l ∧ s.settings.last l ≤ s.settings.first l + 5
  apart : s.settings.first .a ≠ 0 → s.settings.first .b ≠ 0 →
    s.settings.last .a < s.settings.first .b ∨ s.settings.last .b < s.settings.first .a
  saving : ∀ image since, s.profile = .saving image since → s.heat.state = .idle ∧ image = imageOf s.settings

/-- R29, Tables 1-5, 1-6 and 2-1: the attempt number, which fields of the heat record, which timers and which report are present
in each heat state. -/
structure HeatLaw (s : State) : Prop where
  attempt : s.heat.attempt ≤ 15
  attemptZero : s.heat.attempt = 0 ↔ s.heat.state.early
  id : s.heat.id.isSome = true ↔ s.heat.state ≠ .idle
  number : ∀ d, s.heat.id = some d → 1 ≤ d.number ∧ d.number ≤ 65535
  closeTime : s.heat.closeTime.isSome = true ↔ s.heat.state = .watch
  deadline : s.heat.deadlineTime.isSome = true ↔ s.heat.state = .watch ∨ s.heat.state = .running
  gunAbsent : s.heat.state.early ∨ s.heat.state = .marks ∨ s.heat.state = .set → s.heat.gunStamp = none
  gunPresent : s.heat.state = .watch ∨ s.heat.state.stood → s.heat.gunStamp.isSome = true
  issued : s.heat.state ≠ .watch → s.heat.state ≠ .review → s.heat.issued = none
  reportEarly : s.heat.state.early → s.report = none
  reportBefore : s.heat.state.inAttempt →
    s.report = none ∧ s.heat.attempt = 1 ∨ ∃ r, s.report = some r ∧ r.attempt + 1 = s.heat.attempt
  reportAfter : reviewState s.heat.state = true → ∃ r, s.report = some r ∧ r.attempt = s.heat.attempt
  reportClean : s.heat.state.stood → ∀ r, s.report = some r → r.outcome = .clean ∧ r.gunStamp = s.heat.gunStamp

end State

/-- R8, for one entry: the effects in its list are those its standing allows, in order. -/
def Entry.lawful (e : Entry) : Prop :=
  match e.standing with
  | .eligible => e.charges.map Charge.effect = []
  | .cautioned => e.charges.map Charge.effect = [.caution]
  | .disqualified => e.charges.map Charge.effect = [.disqualify] ∨ e.charges.map Charge.effect = [.caution, .disqualify]
  | .withdrawn => e.charges.map Charge.effect = [] ∨ e.charges.map Charge.effect = [.caution]

/-- An RT within −9,999..+9,999 (R117). -/
def rtInRange (rt : Int) : Prop := -9999 ≤ rt ∧ rt ≤ 9999

/-- R161, for an entry or a warning made in attempt `n`: its number is no greater than the current attempt, none exists before
the first attempt, while an attempt is in progress it is an earlier attempt's and final, and afterwards it is final exactly when it is an earlier
attempt's. -/
def finalityAt (h : Heat) (n : Nat) (final : Bool) : Prop :=
  1 ≤ n ∧ n ≤ h.attempt ∧ ¬ h.state.early ∧ (h.state.inAttempt → n < h.attempt) ∧ (final = true ↔ n < h.attempt)

/-- R98, R93, for one lane: a level is its baseline plus the threshold computed from it and fits, and the last complete block
holds the threshold of its mean. -/
def Lane.levelLawful (c : Settings) (l : Lane) : Prop :=
  (∀ b, l.baseline = some b → b.level = b.value + threshold c b.value ∧ b.level ≤ 8190) ∧
    ∀ k, l.lastBlock = some k → k.threshold = threshold c k.mean

/-- The unit detects: a baseline is in use (Table 5-1). -/
def Lane.detecting (l : Lane) : Prop := l.level?.isSome = true

/-- Table 6-2: the phases of a lane of the attempt in SET, with what they hold. -/
def Lane.setLawful (l : Lane) : Prop :=
  l.rt = none ∧
    if l.eligible then
      (l.phase = .settling ∧ ¬ l.detecting) ∨ (l.phase = .settled ∧ l.detecting) ∨ (l.phase = .moved ∧ l.onset.isSome = true)
    else l.phase = .off

/-- Table 6-2: the phases of a lane of the attempt in WATCH, with what they hold. -/
def Lane.watchLawful (l : Lane) : Prop :=
  if l.eligible then
    (l.phase = .settling ∧ ¬ l.detecting) ∨ (l.phase = .waiting ∧ l.detecting) ∨ l.phase = .unsure ∨
      ((l.phase = .moved ∨ l.phase = .reacted) ∧ l.onset.isSome = true ∧ l.rt.isSome = true)
  else l.phase = .off

namespace State

/-- R8: the law of the charge list and the standing. -/
def ChargeLaw (s : State) : Prop := ∀ (i : LaneNo) (e : Entry), s.lanes[i].entry = some e → e.lawful

/-- R161: the law of finality. -/
structure FinalityLaw (s : State) : Prop where
  charges : ∀ (i : LaneNo) (e : Entry), s.lanes[i].entry = some e → ∀ c ∈ e.charges, finalityAt s.heat c.attempt c.final
  warning : ∀ w, s.heat.warning = some w → finalityAt s.heat w.attempt w.final

/-- R9: the law of the bib index. -/
structure IndexLaw (s : State) : Prop where
  sorted : s.bibIndex.Pairwise fun p q => p.1 < q.1
  range : ∀ p ∈ s.bibIndex, 1 ≤ p.1 ∧ p.1 ≤ 9999
  exact : ∀ (b : Nat) (i : LaneNo), (b, i) ∈ s.bibIndex ↔ ∃ e, s.lanes[i].entry = some e ∧ e.bib = b

/-- R6: a closed or unserved lane is VACANT, and in IDLE every lane is. A VACANT lane is OFF (R1). -/
structure RosterLaw (s : State) : Prop where
  served : ∀ i : LaneNo, s.lanes[i].entry.isSome = true →
    s.settings.closed i = false ∧ ∃ l : LinkId, s.settings.serves l i = true
  idle : s.heat.state = .idle → ∀ i : LaneNo, s.lanes[i].entry = none
  vacant : ∀ i : LaneNo, s.lanes[i].entry = none → s.lanes[i].phase = .off ∧ s.lanes[i].baseline = none ∧
    s.lanes[i].onset = none ∧ s.lanes[i].rt = none

/-- R98: the law of the level. Before the first attempt no lane holds a baseline. -/
structure LevelLaw (s : State) : Prop where
  early : s.heat.state.early → ∀ i : LaneNo, s.lanes[i].baseline = none
  later : ¬ s.heat.state.early → ∀ i : LaneNo, s.lanes[i].levelLawful s.settings

/-- R117: the law of reaction times. -/
structure RtLaw (s : State) : Prop where
  current : ∀ (i : LaneNo) (rt : Int), s.lanes[i].rt = some rt → rtInRange rt
  results : ∀ (i : LaneNo) (e : Entry) (r : LaneResult), s.lanes[i].entry = some e → e.result = some r →
    ∀ rt, r.kind.rt = some rt → rtInRange rt
  charges : ∀ (i : LaneNo) (e : Entry), s.lanes[i].entry = some e → ∀ c ∈ e.charges, ∀ rt, c.cause.rt = some rt → rtInRange rt
  report : ∀ r, s.report = some r → ∀ rt, r.earliest = some rt → rtInRange rt

/-- R82: PERMIT_OUT is high exactly while the five conditions hold. -/
def PermitLaw (s : State) : Prop :=
  s.gun.permitOut = true ↔
    s.heat.state = .set ∧ (∃ i : LaneNo, s.lanes[i].eligible = true) ∧
      (∀ i : LaneNo, s.lanes[i].eligible = true → s.lanes[i].phase = .settled) ∧
      (∀ i : LaneNo, s.lanes[i].phase ≠ .moved) ∧
      ∀ (l : LinkId) (i : LaneNo), s.lanes[i].eligible = true → s.settings.serves l i = true → (s.link l).align = .locked

/-- R42: a pulse in progress ends at most 20,000 units from now, the largest RECALL_PULSE, and its end has not been passed. -/
def PulseLaw (s : State) : Prop :=
  ∀ p, s.heat.pulseEnd = some p → 0 ≤ stampDiff p s.trackTime ∧ stampDiff p s.trackTime ≤ 20000

/-- R143: the outcome is FALSE exactly when there are culprits, and the three lists have no lane in common; each list of the
report is in ascending lane order (R12). -/
structure ReportLaw (s : State) : Prop where
  outcome : ∀ r, s.report = some r → (r.outcome = .falseStart ↔ r.culprits ≠ [])
  culpritProvoked : ∀ r, s.report = some r → ∀ i ∈ r.culprits, i ∉ r.provoked
  culpritUnsure : ∀ r, s.report = some r → ∀ i ∈ r.culprits, i ∉ r.unsure
  provokedUnsure : ∀ r, s.report = some r → ∀ i ∈ r.provoked, i ∉ r.unsure
  ascending : ∀ r, s.report = some r → r.culprits.Pairwise (· < ·) ∧ r.provoked.Pairwise (· < ·) ∧
    r.unsure.Pairwise (· < ·) ∧ r.movers.Pairwise (· < ·)

/-- R139: a field warning only under FIELD policy, with a culprit list that is not empty and ascending (R11). -/
def WarningLaw (s : State) : Prop :=
  ∀ w, s.heat.warning = some w →
    (∃ d, s.heat.id = some d ∧ d.policy = .field) ∧ w.culprits ≠ [] ∧ w.culprits.Pairwise (· < ·)

/-- Table 6-2, R30, R107: the phases by heat state; and in WATCH, a lane that is false has issued a recall, and a FALSE_START
recall comes with a false lane (R45, R141). -/
structure PhaseLaw (s : State) : Prop where
  off : s.heat.state.early ∨ s.heat.state = .marks → ∀ i : LaneNo, s.lanes[i].phase = .off
  cleared : s.heat.state = .marks → ∀ i : LaneNo, s.lanes[i].baseline = none ∧ s.lanes[i].onset = none ∧ s.lanes[i].rt = none
  inSet : s.heat.state = .set → ∀ i : LaneNo, s.lanes[i].setLawful
  inWatch : s.heat.state = .watch → ∀ i : LaneNo, s.lanes[i].watchLawful
  recalled : s.heat.state = .watch → (∃ i : LaneNo, (s.falseRt i).isSome = true) → s.heat.issued.isSome = true
  recallCause : s.heat.state = .watch → ∀ r, s.heat.issued = some r → r.cause = .falseStart →
    ∃ i : LaneNo, (s.falseRt i).isSome = true

/-- Tables 5-1 and 6-1: the ranges of the sensing unit's counts and forces. Between heats the counts may be those of the last
heat (log 20). -/
structure CountLaw (s : State) : Prop where
  block : ∀ i : LaneNo, s.lanes[i].block.count < 40
  force : ∀ (i : LaneNo) (f : Nat), s.lanes[i].lastForce = some f → f ≤ 8190
  counts : ¬ s.heat.state.early → ∀ i : LaneNo, s.lanes[i].settleCount ≤ s.settings.settleBlocks ∧
    s.lanes[i].heldCount ≤ s.settings.staleLimit ∧ s.lanes[i].runCount < s.settings.confirmCount

/-- R52, R57, R60, R70, for one link. -/
structure LinkLawAt (c : Settings) (l : LinkId) (r : LinkRx) : Prop where
  disabled : r.align = .disabled ↔ c.first l = 0
  position : r.framePos.isSome = true ↔ r.align = .confirm ∨ r.align = .locked
  frame : r.frame.isSome = true → r.align = .locked
  confirm : r.confirmCount ≤ 2
  errored : r.erroredCount ≤ 2
  checkFailures : r.checkFailures ≤ 65535
  seqFaults : r.seqFaults ≤ 65535
  losses : r.losses ≤ 255
  unmapped : ∀ k : Fin 6, c.mapped l k = false → r.prevSeq[k] = none

/-- The law of the two link receivers. -/
def LinkLaw (s : State) : Prop := ∀ l : LinkId, LinkLawAt s.settings l (s.link l)

/-- R76, R77: the block does not qualify while it is locked out, a qualification runs only with the line low, and its period is
one that GUN_QUALIFY may hold. -/
structure GunLaw (s : State) : Prop where
  exclusive : s.gun.qualification.isSome = true → s.gun.lockoutEnd = none
  low : s.gun.qualification.isSome = true → s.gun.lineLow = true
  period : ∀ q, s.gun.qualification = some q → 2 ≤ q.period ∧ q.period ≤ 50

/-- Table 10-1, R174, R184, R185: which fields of the port are present in each phase. Before the code byte is complete the port
collects at byte position 0; after it, the position counts the code and the argument bytes received, of which one at least is
outstanding. A reset is armed (log 14) only in Answering. While a full reset lasts the port is Deselected at either level of
select, which is the model's choice (log 31). -/
structure PortLaw (s : State) : Prop where
  deselected : s.port.phase = .deselected ↔ s.port.bitCount = none
  position : s.port.bitCount.isSome = s.port.bytePos.isSome
  bits : ∀ n, s.port.bitCount = some n → n ≤ 7
  idle : s.port.phase = .deselected → s.port.code = none
  collecting : s.port.phase = .collecting →
    (s.port.bytePos = some 0 ∧ s.port.code = none ∧ s.port.argsReceived = none) ∨
      ∃ code args n, s.port.code = some code ∧ s.port.argsReceived = some args ∧ argumentCount code = some n ∧
        args.length < n ∧ s.port.bytePos = some (args.length + 1)
  arguments : s.port.phase ≠ .collecting → s.port.argsReceived = none
  code : s.port.phase = .answering ∨ s.port.phase = .streaming → s.port.code.isSome = true
  response : s.port.response.isSome = true ↔ s.port.phase = .answering ∨ s.port.phase = .streaming
  streaming : s.port.phase = .streaming → ∃ r, s.port.response = some r ∧ r.stream.isSome = true
  armed : s.port.softArmed = true → s.port.phase = .answering ∧ s.port.latch = false ∧ s.port.lastResult = .done ∧
    ∃ r, s.port.response = some r ∧ r.stream = none ∧ r.result = .done
  inReset : s.inReset = true → s.port.phase = .deselected

end State

end Sys2Proof.Machine
end

