-- ==== Sys2Proof/Certificates/Slice0/Obligations.lean ====
section
/-! DEFINITION. The statements for the provers, from the numbered rules of spec/. In every statement a port command is taken
while the port is collecting; `State.answered k n (t, a)` is the state after the command of code `k` with `n` argument bytes has
the effect `t` and the answer `a` (PortAnswers says what it holds). A frame is written `{ t with f := s.f } = s`: `t` differs from
`s` in the field `f` alone. -/

open Sys2Proof Sys2Proof.Machine

/-- The command at the front of the queue is executed with the queue's rest. -/
def Obligations.StepRunsFrontCommand : Prop :=
  ∀ (c : Instr) (rest : List Instr) (s : State),
    step { s with pending := c :: rest } = exec c { s with pending := rest }

/-- On an empty queue (DESIGN CHOICE, log 1, log 2 and log 27): the due event is executed; with none due the edge that waits at
the port's pins is taken (PortPins); with none of either one unit of track time passes (R74), or none while a full reset
lasts. R24, R41, R78, R80, R44, R46, R190 with log 2: track time never passes a timer that has been reached; when a step on the
empty queue moves it, every armed timer that a rule acts on lay in the future. -/
def Obligations.StepOnEmptyQueue : Prop :=
  (∀ s : State, s.pending = [] →
    (∀ e, s.dueEvent = some e → step s = exec e s) ∧
      (∀ e rest, s.dueEvent = none → s.edges = e :: rest → step s = State.takeEdge { s with edges := rest } e) ∧
      (s.dueEvent = none → s.edges = [] → s.inReset = false →
        step s = .next { s with trackTime := s.trackTime + 1 }) ∧
      (s.edges = [] → s.inReset = true → step s = .next s)) ∧
  (∀ s t : State, s.pending = [] → step s = .next t → t.trackTime ≠ s.trackTime →
    (∀ p, s.heat.pulseEnd = some p → stampDiff s.trackTime p < 0) ∧
      (∀ p, s.gun.lockoutEnd = some p → stampDiff s.trackTime p < 0) ∧
      (s.heat.state = .watch → ∀ p, s.heat.closeTime = some p → stampDiff s.trackTime p < 0) ∧
      (s.heat.state = .running → ∀ p, s.heat.deadlineTime = some p → stampDiff s.trackTime p < 0) ∧
      (s.gun.lineLow = true → ∀ q, s.gun.qualification = some q →
        stampDiff s.trackTime (q.edge + BitVec.ofNat 32 q.period) < 0) ∧
      ∀ image since, s.profile = .saving image since → stampDiff s.trackTime (since + 400) < 0)

/-- R180: no command stops the block. Every command answers a next state, and none touches what waits. -/
def Obligations.EveryCommandAnswersNext : Prop :=
  ∀ (i : Instr) (s : State), ∃ t, exec i s = .next t ∧ t.pending = s.pending ∧ t.edges = s.edges

/-- R23, R50, R72, R74, R85, R108, R127, R173, R185: what a reset leaves, in State.reset. The levels of the input pins, the
port's shift register and the factory profile are the model's choice (log 11, log 15). -/
def Obligations.ResetValues : Prop :=
  State.reset.trackTime = 0 ∧
    (∀ i : LaneNo, State.reset.lanes[i] = ⟨none, .off, none, none, none, none, ⟨0, 0, 0, 0⟩, none, 0, 0, 0, none, none, none⟩) ∧
    State.reset.bibIndex = [] ∧ State.reset.report = none ∧
    State.reset.heat = ⟨.idle, 0, none, none, none, none, none, none, none⟩ ∧
    State.reset.gun.qualification = none ∧ State.reset.gun.lastAccepted = none ∧ State.reset.gun.lockoutEnd = none ∧
    State.reset.gun.permitOut = false ∧
    (∀ l : LinkId, (State.reset.link l).align = .search ∧ (State.reset.link l).framePos = none ∧
      (State.reset.link l).confirmCount = 0 ∧ (State.reset.link l).erroredCount = 0 ∧ (State.reset.link l).lastTransition = 0 ∧
      (∀ k : Fin 6, (State.reset.link l).prevSeq[k] = none) ∧ (State.reset.link l).checkFailures = 0 ∧
      (State.reset.link l).seqFaults = 0 ∧ (State.reset.link l).losses = 0 ∧ (State.reset.link l).frame = none) ∧
    State.reset.notices = ⟨Vector.replicate 14 false, #v[0, 1, 1, 1, 2, 2, 2, 3, 3, 4, 4, 5, 5, 6], 7⟩ ∧
    State.reset.winner = some .linkADown ∧ State.reset.attn = true ∧
    State.reset.port = ⟨.deselected, none, none, none, none, none, false, .done, false, 0⟩ ∧
    State.reset.profile = .ready ∧ (∀ k : Key, State.reset.settings.vals[k] = settingTable[k].default) ∧
    State.reset.pending = [] ∧ State.reset.edges = []

/-- Every law holds in the state after reset. -/
def Obligations.LawsAtReset : Prop :=
  State.reset.SettingsLaw ∧ State.reset.ChargeLaw ∧ State.reset.IndexLaw ∧ State.reset.RosterLaw ∧ State.reset.HeatLaw ∧
    State.reset.FinalityLaw ∧ State.reset.PhaseLaw ∧ State.reset.ReportLaw ∧ State.reset.WarningLaw ∧ State.reset.RtLaw ∧
    State.reset.LevelLaw ∧ State.reset.CountLaw ∧ State.reset.PermitLaw ∧ State.reset.PulseLaw ∧ State.reset.GunLaw ∧
    State.reset.LinkLaw ∧ State.reset.PortLaw

/-- R176, R177, R180, R183: how the port answers. Taken with answer `a` and effect `t`, a command leaves everything but the
port and the flag of COMMAND_ERROR as in `t`. R177, R175: in Collecting and Ignoring the port sends 0x00; a result byte is
never 0x00 (12.2). SDO is driven exactly while select is low and no full reset lasts. -/
def Obligations.PortAnswers : Prop :=
  (∀ (k : Byte) (n : Nat) (t : State) (a : Answer),
    ∃ u, State.answered k n (t, a) = u ∧
      u.port.phase = .answering ∧ u.port.bitCount = some 0 ∧ u.port.bytePos = some (n + 1) ∧ u.port.code = some k ∧
      u.port.argsReceived = none ∧ u.port.response = some ⟨a.result, n + 1, n + 2, a.copy, a.stream⟩ ∧
      (u.port.latch = true ↔ k = 0x02) ∧ u.port.softArmed = t.port.softArmed ∧
      (k = 0x01 → u.port.lastResult = t.port.lastResult) ∧ (k ≠ 0x01 → u.port.lastResult = a.result) ∧
      u.port.byteSent (n + 1) = a.result.value ∧
      (∀ j, u.port.byteSent (n + 2 + j) = a.copy.getD j 0) ∧
      (∀ x : NoticeSource, u.notices.events[x.index] = true ↔
        t.notices.events[x.index] = true ∨ x = .commandError ∧ a.result ≠ .done ∧ a.result ≠ .clamped) ∧
      u.notices.levels = t.notices.levels ∧ u.notices.ceiling = t.notices.ceiling ∧
      { u with port := t.port, notices := t.notices } = t) ∧
  ((∀ (p : Port) (j : Nat), p.phase = .collecting ∨ (∃ c, p.phase = .ignoring c) → p.byteSent j = 0) ∧
    (∀ r : ResultCode, r.value ≠ 0) ∧ (∀ r q : ResultCode, r.value = q.value → r = q) ∧
    ∀ s : State, s.sdoDriven = true ↔ s.inReset = false ∧ s.port.phase ≠ .deselected)

/-- R176, R180, R183: each of the thirty port commands is taken when the port is collecting: it is answered at once, the latch
is set by RESET ENABLE and cleared by every other command, and the last result is that of the command unless it is READ
STATUS. In any other phase, and during a full reset, its bytes reach no owner (R174, R175, log 4). -/
def Obligations.PortCommandsAreTaken : Prop :=
  ∀ (i : Instr) (k : Byte) (s : State), i.code = some k →
    (s.collecting = true → ∃ t r, exec i s = .next t ∧ t.port.phase = .answering ∧ t.port.code = some k ∧
      t.port.response = some r ∧ r.resultPos = i.argumentBytes.length + 1 ∧ r.result ≠ .framing ∧
      (t.port.latch = true ↔ i = .resetEnable) ∧
      t.port.lastResult = if i = .readStatus then s.port.lastResult else r.result) ∧
    (s.collecting = false → exec i s = .next s)

/-- R174: select falls. A fall needs a select that is high (log 3). R179: a code byte that names no command puts the port in
Ignoring; a code of the table is no such event (log 26), and outside Collecting no code byte is received, so the row has no
effect there (log 3). While a full reset lasts the rise of select has no effect (R185, log 12). R179, R178: the rise of select
discards a transaction whose command is not taken, and ends any other normally. Both rows are that rise; the port's phase
decides (log 17). No reset is armed here (SoftReset says what an armed one does). -/
def Obligations.Transactions : Prop :=
  (∀ s : State,
    (s.inReset = false → s.port.phase = .deselected →
      exec .transactionStart s = .next { s with port := { s.port with
        phase := .collecting, bitCount := some 0, bytePos := some 0, code := none, argsReceived := none, response := none } }) ∧
    (s.inReset = true ∨ s.port.phase ≠ .deselected → exec .transactionStart s = .next s)) ∧
  (∀ (code : Byte) (s : State), s.collecting = true →
    ((∀ i : Instr, i.code ≠ some code) →
      exec (.unknownCommandCode code) s = .next { s with port := { s.port with
        phase := .ignoring .unknownCode, bitCount := some 0, bytePos := some 1, code := some code, argsReceived := none,
        response := none } }) ∧
    ((∃ i : Instr, i.code = some code) → exec (.unknownCommandCode code) s = .next s)) ∧
  (∀ (code : Byte) (s : State), s.collecting = false → exec (.unknownCommandCode code) s = .next s) ∧
  (∀ s : State, s.inReset = true → exec .transactionEnd s = .next s ∧ exec .transactionDiscard s = .next s) ∧
  (∀ s : State, s.inReset = false → s.port.softArmed = false → ∃ t,
    exec .transactionEnd s = .next t ∧ exec .transactionDiscard s = .next t ∧
      (s.port.phase = .deselected → t = s) ∧
      (s.port.phase = .collecting ∨ s.port.phase = .ignoring .unknownCode →
        t.port = { s.port with
          phase := .deselected, bitCount := none, bytePos := none, code := none, argsReceived := none, response := none,
          lastResult := .framing, latch := false } ∧
        (∀ x : NoticeSource, t.notices.events[x.index] = true ↔ s.notices.events[x.index] = true ∨ x = .commandError) ∧
        t.notices.levels = s.notices.levels ∧ t.notices.ceiling = s.notices.ceiling ∧
        { t with port := s.port, notices := s.notices } = s) ∧
      (s.port.phase = .answering ∨ s.port.phase = .streaming ∨ s.port.phase = .ignoring .softReset ∨
          s.port.phase = .ignoring .fullReset →
        t = { s with port := { s.port with
          phase := .deselected, bitCount := none, bytePos := none, code := none, argsReceived := none, response := none } }))

/-- R183, R184: RESET ENABLE, SOFT RESET with its tests in order, and what the answer leaves armed. R184, R23, R50, R73, R86,
R108, R127, R173, R193: an armed soft reset acts, at the end of the result byte or at the rise of select. Track time, the last
result and the gun's qualification, lockout, stamp and line are kept. That a flag of the port, `softArmed`, holds the reset
between its taking and its action, and that TRANSACTION_END with the flag set is the rise at which it acts, is the model's
reading of R184 (log 14, DEDUCED). With nothing armed, or in a full reset, the row has no effect (log 3, log 12). -/
def Obligations.SoftReset : Prop :=
  (∀ s : State, s.collecting = true →
    (exec .resetEnable s = .next (State.answered 0x02 0 (s, ⟨.done, [], none⟩))) ∧
    (s.port.latch = false → exec .softReset s = .next (State.answered 0x03 0 (s, ⟨.notArmed, [], none⟩))) ∧
    (s.port.latch = true → (∃ image since, s.profile = .saving image since) →
      exec .softReset s = .next (State.answered 0x03 0 (s, ⟨.busy, [], none⟩))) ∧
    (s.port.latch = true → (∀ image since, s.profile ≠ .saving image since) →
      exec .softReset s =
        .next (State.answered 0x03 0 ({ s with port := { s.port with softArmed := true } }, ⟨.done, [], none⟩)))) ∧
  (∀ s : State, s.inReset = false → s.port.softArmed = true →
    s.port.phase = .answering ∨ s.port.phase = .streaming → ∃ t u,
    exec (.softResetAction .resultByteEnd) s = .next t ∧ exec (.softResetAction .selectRise) s = .next u ∧
      exec .transactionEnd s = .next u ∧
      t.port = { s.port with
        phase := .ignoring .softReset, bitCount := some 0, bytePos := s.port.response.map (·.resultPos + 1), response := none,
        softArmed := false, latch := false } ∧
      u.port = { s.port with
        phase := .deselected, bitCount := none, bytePos := none, code := none, argsReceived := none, response := none,
        softArmed := false, latch := false } ∧
      { t with port := u.port } = u ∧
      (∀ i : LaneNo, u.lanes[i] = Lane.cleared) ∧ u.bibIndex = [] ∧ u.report = none ∧
      u.heat = ⟨.idle, 0, none, none, none, none, none, none, none⟩ ∧ u.gun = { s.gun with permitOut := false } ∧
      u.settings = (if imageAccepted s.nvm then imageSettings s.nvm else Settings.defaults) ∧
      u.profile = (if imageAccepted s.nvm then .ready else .defaults) ∧
      (∀ l : LinkId, u.link l = (s.link l).settingsChange s.settings u.settings l) ∧
      (∀ x : NoticeSource, u.notices.events[x.index] = true ↔ x = .profileBad ∧ imageAccepted s.nvm = false) ∧
      u.notices.levels = #v[0, 1, 1, 1, 2, 2, 2, 3, 3, 4, 4, 5, 5, 6] ∧ u.notices.ceiling = 7 ∧
      u.trackTime = s.trackTime ∧ u.nvm = s.nvm ∧ u.inReset = false ∧ u.profileWp = s.profileWp ∧
      u.freeCount = s.freeCount ∧ u.pending = s.pending ∧ u.edges = s.edges ∧ u.sckHigh = s.sckHigh) ∧
  (∀ (m : ResetMoment) (s : State), s.inReset = true ∨ s.port.softArmed = false →
    exec (.softResetAction m) s = .next s)

/-- R185, R23, R50, R72, R74, R85, R108, R127, R173, R193: a full reset, and its end with select high or low. The bytes of a
profile whose save is cut are a free value, whatever Config.saveByteWritten says of each (log 10). While the reset lasts the port
is Deselected at either level of select, with no bit count and no byte position: that is the model's choice (log 31). The shift
register, which no rule names, is 0 by the model's choice (log 15). The end is stated for every state in which a reset lasts,
since the levels of GUN_IN, the lines and SCK are followed meanwhile (log 12). The port's state after a reset that ends with
select low is log 13. With no full reset in progress FULL_RESET_END cannot occur, and leaves the state: that is the model's
choice (log 3). -/
def Obligations.FullReset : Prop :=
  (∀ s : State, ∃ t, exec .fullReset s = .next t ∧
    t.trackTime = 0 ∧ t.inReset = true ∧ t.port = ⟨.deselected, none, none, none, none, none, false, .done, false, 0⟩ ∧
    (∀ i : LaneNo, t.lanes[i] = Lane.cleared) ∧ t.bibIndex = [] ∧ t.report = none ∧
    t.heat = ⟨.idle, 0, none, none, none, none, none, none, none⟩ ∧ t.gun = ⟨none, none, none, false, s.gun.lineLow⟩ ∧
    ((∀ image since, s.profile ≠ .saving image since) → t.nvm = s.nvm ∧ t.freeCount = s.freeCount) ∧
    (∀ image since, s.profile = .saving image since → ∀ j : Fin 82, t.nvm[j] = image[j] ∨ t.nvm[j] = s.nvm[j]) ∧
    t.settings = (if imageAccepted t.nvm then imageSettings t.nvm else Settings.defaults) ∧
    t.profile = (if imageAccepted t.nvm then .ready else .defaults) ∧
    (∀ l : LinkId, t.link l = ⟨if t.settings.first l = 0 then .disabled else .search, none, 0, 0, 0,
      Vector.replicate 6 none, 0, 0, 0, none, (s.link l).lineHigh⟩) ∧
    (∀ x : NoticeSource, t.notices.events[x.index] = true ↔ x = .profileBad ∧ imageAccepted t.nvm = false) ∧
    t.notices.levels = #v[0, 1, 1, 1, 2, 2, 2, 3, 3, 4, 4, 5, 5, 6] ∧ t.notices.ceiling = 7 ∧ t.attn = false ∧
    t.profileWp = s.profileWp ∧ t.sckHigh = s.sckHigh ∧ t.pending = s.pending ∧ t.edges = s.edges) ∧
  (∀ s : State, s.inReset = true →
    exec (.fullResetEnd true) s = .next { s with inReset := false } ∧
    exec (.fullResetEnd false) s = .next { s with
      inReset := false,
      port := { s.port with phase := .ignoring .fullReset, bitCount := some 0, bytePos := some 0 } }) ∧
  (∀ (high : Bool) (s : State), s.inReset = false → exec (.fullResetEnd high) s = .next s)

/-- R20, R21, R22, R71, R171, R181, R182: the reads that are refused nowhere. Each returns its copy, taken when the command is
taken, and changes no record. R20, R21: READ LANE and READ ROSTER, for every lane argument. R71: READ LINK, for every
argument; a clear acts after the copy. -/
def Obligations.ReadCommands : Prop :=
  (∀ s : State, s.collecting = true →
    exec .readStatus s = .next (State.answered 0x01 0 (s, ⟨.done,
      [s.heat.state.value, byteOf s.heat.attempt,
        byteOf ((if s.gun.permitOut then 1 else 0) + (if s.recallOut then 2 else 0) + (if s.port.latch then 4 else 0)),
        s.linkA.align.value, s.linkB.align.value, s.profile.value, s.port.lastResult.value, sourceByte s.winner,
        byteOf s.notices.ceiling.val], some .status⟩)) ∧
    exec .readNotices s = .next (State.answered 0x14 0 (s, ⟨.done, s.noticeBytes, none⟩)) ∧
    exec .readHeat s = .next (State.answered 0x38 0 (s, ⟨.done, heatBytes s.heat, none⟩)) ∧
    (∀ r, s.report = some r → exec .readAttempt s = .next (State.answered 0x39 0 (s, ⟨.done, reportBytes r, none⟩))) ∧
    (s.report = none → exec .readAttempt s = .next (State.answered 0x39 0 (s, ⟨.notFound, [], none⟩)))) ∧
  (∀ (lane : Byte) (s : State), s.collecting = true →
    (∀ i : LaneNo, lane.toNat = laneNumber i →
      exec (.readLane lane) s = .next (State.answered 0x36 1 (s, ⟨.done, laneBytes i s.lanes[i], none⟩)) ∧
      ∃ j : LaneNo, laneNumber j = (if laneNumber i = 10 then 1 else laneNumber i + 1) ∧
        exec (.readRoster lane) s = .next (State.answered 0x37 1 (s, ⟨.done, laneBytes i s.lanes[i], some (.roster j)⟩))) ∧
    (lane.toNat = 0 ∨ 10 < lane.toNat →
      exec (.readLane lane) s = .next (State.answered 0x36 1 (s, ⟨.badArgument, [], none⟩)) ∧
      exec (.readRoster lane) s = .next (State.answered 0x37 1 (s, ⟨.badArgument, [], none⟩)))) ∧
  (∀ (link clear : Byte) (s : State), s.collecting = true →
    (1 < link.toNat ∨ 1 < clear.toNat →
      exec (.readLink link clear) s = .next (State.answered 0x60 2 (s, ⟨.badArgument, [], none⟩))) ∧
    ∀ l : LinkId, link = (if l = .a then 0 else 1) →
      (clear = 0 → exec (.readLink link clear) s = .next (State.answered 0x60 2 (s, ⟨.done, linkBytes (s.link l), none⟩))) ∧
      (clear = 1 →
        ∃ t, exec (.readLink link clear) s = .next (State.answered 0x60 2 (t, ⟨.done, linkBytes (s.link l), none⟩)) ∧
          t.link l = { s.link l with checkFailures := 0, seqFaults := 0, losses := 0 } ∧
          (∀ o, o ≠ l → t.link o = s.link o) ∧ { t with linkA := s.linkA, linkB := s.linkB } = s))

/-- R21, R181: while a stream runs, the copy of each later record is taken when the port begins to send it, its first byte
follows the last byte of the record before it, and READ ROSTER wraps after lane 10. The row leaves the port in Streaming, also
when no edge of SCK has taken it there before: a run of rows passes over the edge that begins the first record (log 18,
DEDUCED; PortPins has that edge). A response that is no stream has no later record, and the row then leaves the state (log 3). -/
def Obligations.StreamsCopyTheNextRecord : Prop :=
  ∀ (s : State) (r : Response), s.inReset = false → s.port.response = some r →
    (r.stream = some .status → exec .streamRecordCopy s = .next { s with port := { s.port with
      phase := .streaming, bitCount := some 0, bytePos := some (r.copyPos + r.copy.length),
      response := some ⟨r.result, r.resultPos, r.copyPos + r.copy.length, s.statusBytes, some .status⟩ } }) ∧
    (∀ i : LaneNo, r.stream = some (.roster i) →
      ∃ j : LaneNo, laneNumber j = (if laneNumber i = 10 then 1 else laneNumber i + 1) ∧
        exec .streamRecordCopy s = .next { s with port := { s.port with
          phase := .streaming, bitCount := some 0, bytePos := some (r.copyPos + r.copy.length),
          response := some ⟨r.result, r.resultPos, r.copyPos + r.copy.length, laneBytes i s.lanes[i], some (.roster j)⟩ } }) ∧
    (r.stream = none → exec .streamRecordCopy s = .next s)

/-- R194, Tables 12-2 to 12-8: every record has its fixed length, each field its place, and an absent field is zeros; the values
of the enumerations; a lane mask gives its list exactly, and the pending mask its set; a number is big-endian, a stamp its 32-bit
count, and a reaction time two's complement. The status record's fields are in ReadCommands. -/
def Obligations.RecordsHaveFixedForm : Prop :=
  (∀ s : State, s.statusBytes.length = 9 ∧ s.noticeBytes.length = 17) ∧ (∀ h : Heat, (heatBytes h).length = 19) ∧
    (∀ r : Report, (reportBytes r).length = 18) ∧ (∀ (i : LaneNo) (l : Lane), (laneBytes i l).length = 30) ∧
    (∀ r : LinkRx, (linkBytes r).length = 6) ∧
    (∀ (i : LaneNo) (l : Lane), l.entry = none → l.baseline = none → l.onset = none → l.rt = none → l.phase = .off →
      laneBytes i l = byteOf (laneNumber i) :: List.replicate 29 0) ∧
    (∀ (lanes : List LaneNo) (i : LaneNo), i ∈ lanes ↔ (laneMask lanes).testBit i.val = true) ∧
    (∀ lanes : List LaneNo, laneMask lanes < 0x0400) ∧ laneMask [2, 3] = 0x000C ∧
    rtBytes (-9999) = [0xD8, 0xF1] ∧ rtBytes 9999 = [0x27, 0x0F] ∧
    (∀ x y : Int, rtInRange x → rtInRange y → rtBytes x = rtBytes y → x = y) ∧
    (∀ n : Nat, (byteOf n).toNat = n % 256) ∧
    (∀ x : Int, ∃ a b, rtBytes x = [a, b] ∧ a ++ b = BitVec.ofInt 16 x) ∧
    (∀ t : Stamp, ∃ a b c d, stampBytes t = [a, b, c, d] ∧ a ++ b ++ c ++ d = t) ∧
    (∀ (i : LaneNo) (l : Lane) (e : Entry), l.entry = some e →
      let f := fun (a n : Nat) => ((laneBytes i l).drop a).take n
      f 0 4 = [byteOf (laneNumber i),
        byteOf (1 + (if l.baseline.isSome then 2 else 0) + (if l.onset.isSome then 4 else 0) + (if l.rt.isSome then 8 else 0) +
          (if e.result.isSome then 16 else 0)),
        l.phase.value, e.standing.value] ∧
      f 4 2 = [byteOf (e.bib / 256), byteOf e.bib] ∧
      f 6 5 = (match l.baseline with
        | none => [0, 0, 0, 0, 0]
        | some b => [byteOf (b.value / 256), byteOf b.value, b.kind.value, byteOf (b.level / 256), byteOf b.level]) ∧
      f 11 4 = (match l.onset with
        | none => [0, 0, 0, 0]
        | some t => stampBytes t) ∧
      f 15 2 = (match l.rt with
        | none => [0, 0]
        | some x => rtBytes x) ∧
      f 17 4 = (match e.result with
        | none => [0, 0, 0, 0]
        | some r => [r.kind.value, byteOf ((if r.kind.rt.isSome then 1 else 0) + (if r.provisional then 2 else 0))] ++
          (match r.kind.rt with
            | none => [0, 0]
            | some x => rtBytes x)) ∧
      f 21 1 = [byteOf e.charges.length] ∧
      ∀ k : Fin 2, f (22 + 4 * k.val) 4 = (match e.charges[k.val]? with
        | none => [0, 0, 0, 0]
        | some c => [byteOf c.attempt,
            byteOf ((if c.effect = .disqualify then 1 else 0) + (if c.cause = .referee then 2 else 0) +
              (if c.final then 4 else 0) + (if c.cause.rt.isSome then 8 else 0))] ++
          (match c.cause.rt with
            | none => [0, 0]
            | some x => rtBytes x))) ∧
    (∀ h : Heat,
      let f := fun (a n : Nat) => ((heatBytes h).drop a).take n
      f 0 3 = [h.state.value, byteOf h.attempt,
        byteOf ((if h.id.isSome then 1 else 0) + (if h.gunStamp.isSome then 2 else 0) + (if h.issued.isSome then 4 else 0) +
          (if h.warning.isSome then 8 else 0))] ∧
      f 3 3 = (match h.id with
        | none => [0, 0, 0]
        | some d => [byteOf (d.number / 256), byteOf d.number, d.policy.value]) ∧
      f 6 4 = (match h.gunStamp with
        | none => [0, 0, 0, 0]
        | some t => stampBytes t) ∧
      f 10 5 = (match h.issued with
        | none => [0, 0, 0, 0, 0]
        | some r => r.cause.value :: stampBytes r.stamp) ∧
      f 15 4 = (match h.warning with
        | none => [0, 0, 0, 0]
        | some w => [byteOf w.attempt, if w.final then 1 else 0, byteOf (laneMask w.culprits / 256),
            byteOf (laneMask w.culprits)])) ∧
    (∀ r : Report,
      let f := fun (a n : Nat) => ((reportBytes r).drop a).take n
      f 0 3 = [byteOf r.attempt, r.outcome.value,
        byteOf ((if r.gunStamp.isSome then 1 else 0) + (if r.recallCause.isSome then 2 else 0) +
          (if r.earliest.isSome then 4 else 0))] ∧
      f 3 4 = (match r.gunStamp with
        | none => [0, 0, 0, 0]
        | some t => stampBytes t) ∧
      f 7 1 = (match r.recallCause with
        | none => [0]
        | some c => [c.value]) ∧
      f 8 8 = [byteOf (laneMask r.culprits / 256), byteOf (laneMask r.culprits), byteOf (laneMask r.provoked / 256),
        byteOf (laneMask r.provoked), byteOf (laneMask r.unsure / 256), byteOf (laneMask r.unsure),
        byteOf (laneMask r.movers / 256), byteOf (laneMask r.movers)] ∧
      f 16 2 = (match r.earliest with
        | none => [0, 0]
        | some x => rtBytes x)) ∧
    (∀ s : State,
      (∃ (a b : Byte) (mask : BitVec 16), s.noticeBytes.take 2 = [a, b] ∧ mask = a ++ b ∧
        (∀ x : NoticeSource, mask.getLsbD x.index.val = s.noticePending x) ∧ mask.getLsbD 14 = false ∧
        mask.getLsbD 15 = false) ∧
      (∀ x : NoticeSource, (s.noticeBytes.drop (2 + x.index.val)).take 1 = [byteOf (s.noticeLevel x).val]) ∧
      s.noticeBytes.drop 16 = [byteOf s.notices.ceiling.val]) ∧
    (∀ r : LinkRx, linkBytes r = [r.align.value, byteOf (r.checkFailures / 256), byteOf r.checkFailures,
      byteOf (r.seqFaults / 256), byteOf r.seqFaults, byteOf r.losses]) ∧
    [HeatState.idle, .roster, .marks, .set, .watch, .running, .done, .review].map HeatState.value = [0, 1, 2, 3, 4, 5, 6, 7] ∧
    [Phase.off, .settling, .settled, .moved, .reacted, .waiting, .unsure].map Phase.value = [0, 1, 2, 3, 4, 5, 6] ∧
    [Standing.eligible, .cautioned, .disqualified, .withdrawn].map Standing.value = [0, 1, 2, 3] ∧
    (∀ x : Int, [ResultKind.clean x, .noReaction, .culprit x, .provoked x, .unsure, .notStarted].map ResultKind.value =
      [0, 1, 2, 3, 4, 5]) ∧
    [AttemptOutcome.clean, .falseStart, .starterRecall, .equipmentRecall, .stoodUp].map AttemptOutcome.value =
      [0, 1, 2, 3, 4] ∧
    [Policy.individual, .field, .caution].map Policy.value = [0, 1, 2] ∧
    [RecallCause.falseStart, .starter, .equipment].map RecallCause.value = [0, 1, 2] ∧
    [Align.search, .confirm, .locked, .disabled].map Align.value = [0, 1, 2, 3] ∧
    (∀ image since, [ProfileState.ready, .saving image since, .defaults].map ProfileState.value = [0, 1, 2]) ∧
    [BaselineKind.settled, .provisional].map BaselineKind.value = [0, 1] ∧
    [ResultCode.done, .clamped, .busy, .wrongState, .badArgument, .duplicate, .notFound, .noLanes, .limit, .tooLate, .final,
      .locked, .notArmed, .framing].map ResultCode.value =
        [0x01, 0x02, 0x03, 0x04, 0x05, 0x06, 0x07, 0x08, 0x09, 0x0A, 0x0B, 0x0C, 0x0D, 0x0E]

/-- R166: the winner is a qualifying source that no qualifying source beats by its level, or by its order number at the same
level; ATTN is asserted exactly while some source qualifies. -/
def Obligations.WinnerIsMostUrgent : Prop :=
  ∀ s : State,
    (∀ x, s.winner = some x ↔
      s.noticePending x = true ∧ s.noticeLevel x < s.notices.ceiling ∧
        ∀ y, s.noticePending y = true → s.noticeLevel y < s.notices.ceiling →
          s.noticeLevel x < s.noticeLevel y ∨ s.noticeLevel x = s.noticeLevel y ∧ x.index ≤ y.index) ∧
    (s.attn = true ↔ s.inReset = false ∧ ∃ x, s.noticePending x = true ∧ s.noticeLevel x < s.notices.ceiling) ∧
    (s.winner = none ↔ ∀ x, ¬ (s.noticePending x = true ∧ s.noticeLevel x < s.notices.ceiling))

/-- R167, R165: TAKE NOTICE returns the winner and the old ceiling; the ceiling takes the winner's level, and the winner's
flag is cleared if it is an event. A condition source stays pending. -/
def Obligations.TakeNotice : Prop :=
  ∀ s : State, s.collecting = true →
    (s.winner = none →
      exec .takeNotice s = .next (State.answered 0x10 0 (s, ⟨.done, [0, byteOf s.notices.ceiling.val], none⟩))) ∧
    (∀ x, s.winner = some x → ∃ t,
      exec .takeNotice s =
        .next (State.answered 0x10 0 (t, ⟨.done, [byteOf (x.index.val + 1), byteOf s.notices.ceiling.val], none⟩)) ∧
      t.notices.ceiling = s.noticeLevel x ∧ t.notices.levels = s.notices.levels ∧
      (∀ y, t.noticePending y = true ↔
        s.noticePending y = true ∧ (y = x → x = .linkADown ∨ x = .linkBDown)) ∧
      t.winner = none ∧ { t with notices := s.notices } = s)

/-- R168: NOTICE DONE sets the ceiling, a value above 7 to 7. R169, R170, R163: CLEAR NOTICE and SET NOTICE LEVEL, for every
source argument; sources are named by their order numbers. -/
def Obligations.NoticeSettings : Prop :=
  (∀ (v : Byte) (s : State), s.collecting = true →
    (∀ c : Fin 8, v.toNat = c.val →
      exec (.noticeDone v) s =
        .next (State.answered 0x11 1 ({ s with notices := { s.notices with ceiling := c } }, ⟨.done, [], none⟩))) ∧
    (7 < v.toNat →
      exec (.noticeDone v) s =
        .next (State.answered 0x11 1 ({ s with notices := { s.notices with ceiling := 7 } }, ⟨.clamped, [], none⟩)))) ∧
  (∀ (v level : Byte) (s : State), s.collecting = true →
    (∀ x : NoticeSource, v.toNat = x.index.val + 1 →
      ((x = .linkADown ∨ x = .linkBDown) →
        exec (.clearNotice v) s = .next (State.answered 0x12 1 (s, ⟨.badArgument, [], none⟩))) ∧
      (x ≠ .linkADown → x ≠ .linkBDown → ∃ t,
        exec (.clearNotice v) s = .next (State.answered 0x12 1 (t, ⟨.done, [], none⟩)) ∧
        (∀ y, t.noticePending y = true ↔ s.noticePending y = true ∧ y ≠ x) ∧
        t.notices.levels = s.notices.levels ∧ t.notices.ceiling = s.notices.ceiling ∧ { t with notices := s.notices } = s) ∧
      ∃ t, exec (.setNoticeLevel v level) s =
          .next (State.answered 0x13 2 (t, ⟨if level.toNat ≤ 7 then .done else .clamped, [], none⟩)) ∧
        (t.noticeLevel x).val = min level.toNat 7 ∧ (∀ y, y ≠ x → t.noticeLevel y = s.noticeLevel y) ∧
        t.notices.events = s.notices.events ∧ t.notices.ceiling = s.notices.ceiling ∧ { t with notices := s.notices } = s) ∧
    (v.toNat = 0 ∨ 14 < v.toNat →
      exec (.clearNotice v) s = .next (State.answered 0x12 1 (s, ⟨.badArgument, [], none⟩)) ∧
      exec (.setNoticeLevel v level) s = .next (State.answered 0x13 2 (s, ⟨.badArgument, [], none⟩))))

/-- R187: READ SETTING, for every key argument. R186, R187, R188, R191: WRITE SETTING's tests in order, and for a key that is
no link range key the clamp and the value set. What a change does to receivers and lanes is SettingsChange. -/
def Obligations.SettingCommands : Prop :=
  (∀ (v : Byte) (s : State), s.collecting = true →
    (∀ k : Key, v.toNat = k.val + 1 →
      exec (.readSetting v) s =
        .next (State.answered 0x20 1 (s, ⟨.done, [byteOf (s.settings.vals[k] / 256), byteOf s.settings.vals[k]], none⟩))) ∧
    (v.toNat = 0 ∨ 40 < v.toNat → exec (.readSetting v) s = .next (State.answered 0x20 1 (s, ⟨.badArgument, [], none⟩)))) ∧
  (∀ (v : Byte) (value : BitVec 16) (s : State), s.collecting = true →
    (v.toNat = 0 ∨ 40 < v.toNat →
      exec (.writeSetting v value) s = .next (State.answered 0x21 3 (s, ⟨.badArgument, [], none⟩))) ∧
    ∀ k : Key, v.toNat = k.val + 1 →
      (¬ (s.heat.state = .idle ∨ s.heat.state = .roster ∧ k.val < 14) →
        exec (.writeSetting v value) s = .next (State.answered 0x21 3 (s, ⟨.wrongState, [], none⟩))) ∧
      ((s.heat.state = .idle ∨ s.heat.state = .roster ∧ k.val < 14) →
        ((∃ image since, s.profile = .saving image since) →
          exec (.writeSetting v value) s = .next (State.answered 0x21 3 (s, ⟨.busy, [], none⟩))) ∧
        ((∀ image since, s.profile ≠ .saving image since) → (k.val < 14 ∨ 17 < k.val) → ∃ c : Settings,
          exec (.writeSetting v value) s = .next (State.answered 0x21 3 (s.changeSettings c,
            ⟨if settingTable[k].lo ≤ value.toNat ∧ value.toNat ≤ settingTable[k].hi then .done else .clamped, [], none⟩)) ∧
          c.vals[k] = max settingTable[k].lo (min value.toNat settingTable[k].hi) ∧
          ∀ j : Key, j ≠ k → c.vals[j] = s.settings.vals[j])))

/-- R188: a write of a link range key, in IDLE with no save in progress. `f` and `n` are the link's first and last lane with
the written key changed, `m` the last lane after the span is clamped. -/
def Obligations.WriteLinkRange : Prop :=
  ∀ (l : LinkId) (isLast : Bool) (v : Byte) (value : BitVec 16) (s : State) (f n m : Nat) (o : LinkId),
    s.collecting = true → s.heat.state = .idle → (∀ image since, s.profile ≠ .saving image since) → o ≠ l →
    v.toNat = (if l = .a then 15 else 17) + (if isLast then 1 else 0) →
    f = (if isLast then s.settings.first l else min value.toNat 10) →
    n = (if isLast then min value.toNat 10 else s.settings.last l) →
    m = (if f ≠ 0 ∧ f + 5 < n then f + 5 else n) →
    let bad := f ≠ 0 ∧ m < f ∨ s.settings.first o ≠ 0 ∧ s.settings.last o < s.settings.first o ∨
      f ≠ 0 ∧ s.settings.first o ≠ 0 ∧ f ≤ s.settings.last o ∧ s.settings.first o ≤ m
    (bad → exec (.writeSetting v value) s = .next (State.answered 0x21 3 (s, ⟨.badArgument, [], none⟩))) ∧
    (¬ bad → ∃ c : Settings,
      exec (.writeSetting v value) s = .next (State.answered 0x21 3 (s.changeSettings c,
        ⟨if value.toNat ≤ 10 ∧ m = n then .done else .clamped, [], none⟩)) ∧
      c.first l = f ∧ c.last l = m ∧ c.first o = s.settings.first o ∧ c.last o = s.settings.last o ∧
      ∀ k : Key, k.val < 14 ∨ 17 < k.val → c.vals[k] = s.settings.vals[k])

/-- R57, R91, R188: what a change of the working settings does. It takes a receiver to DISABLED or SEARCH as its first lane
becomes 0 or a lane, clears previous sequences where slots change their lanes, and makes the last fresh drive force absent at
a change of a range or closure. A range is the pair of lanes of an enabled link and is empty for a disabled one (R6, log 19).
That the confirm count and the errored-word count are 0 in a receiver that has entered DISABLED is the model's choice (log 29).
-/
def Obligations.SettingsChange : Prop :=
  ∀ (s : State) (c : Settings), ∃ t, s.changeSettings c = t ∧ t.settings = c ∧
    { t with settings := s.settings, linkA := s.linkA, linkB := s.linkB, lanes := s.lanes } = s ∧
    (∀ l : LinkId, ∃ r, t.link l = r ∧
      r.checkFailures = (s.link l).checkFailures ∧ r.seqFaults = (s.link l).seqFaults ∧ r.losses = (s.link l).losses ∧
      r.lastTransition = (s.link l).lastTransition ∧ r.lineHigh = (s.link l).lineHigh ∧
      (s.settings.first l = 0 → c.first l = 0 → r = s.link l) ∧
      (s.settings.first l ≠ 0 → c.first l = 0 → r.align = .disabled ∧ r.framePos = none ∧ r.frame = none ∧
        r.confirmCount = 0 ∧ r.erroredCount = 0) ∧
      (s.settings.first l = 0 → c.first l ≠ 0 → r.align = .search ∧ r.framePos = none ∧ r.frame = none ∧
        r.confirmCount = 0 ∧ r.erroredCount = 0 ∧ ∀ k : Fin 6, r.prevSeq[k] = none) ∧
      (s.settings.first l ≠ 0 → c.first l ≠ 0 →
        (s.settings.first l ≠ c.first l ∨ s.settings.last l ≠ c.last l → ∀ k : Fin 6, r.prevSeq[k] = none) ∧
        (s.settings.first l = c.first l → s.settings.last l = c.last l →
          ∀ k : Fin 6, r.prevSeq[k] = if ∃ i : LaneNo, laneNumber i = c.first l + k.val ∧ laneNumber i ≤ c.last l ∧
            s.settings.closed i ≠ c.closed i then none else (s.link l).prevSeq[k]) ∧
        { r with prevSeq := (s.link l).prevSeq } = s.link l)) ∧
    ∀ i : LaneNo, t.lanes[i] = if s.settings.range .a ≠ c.range .a ∨ s.settings.range .b ≠ c.range .b ∨
        s.settings.closed i ≠ c.closed i then { s.lanes[i] with lastForce := none } else s.lanes[i]

/-- R190, R191: SAVE PROFILE with its tests in order, and the completion of the save. `wp` is the level of PROFILE_WP (log 5).
R190: the completion of a save. With no save in progress there is nothing to complete (log 3). -/
def Obligations.ProfileSave : Prop :=
  (∀ (wp : Bool) (s : State), s.collecting = true →
    (s.heat.state ≠ .idle → exec (.saveProfile wp) s = .next (State.answered 0x22 0
      ({ s with profileWp := wp }, ⟨.wrongState, [], none⟩))) ∧
    (s.heat.state = .idle → (∃ image since, s.profile = .saving image since) →
      exec (.saveProfile wp) s = .next (State.answered 0x22 0 ({ s with profileWp := wp }, ⟨.busy, [], none⟩))) ∧
    (s.heat.state = .idle → (∀ image since, s.profile ≠ .saving image since) → wp = false →
      exec (.saveProfile wp) s = .next (State.answered 0x22 0 ({ s with profileWp := wp }, ⟨.locked, [], none⟩))) ∧
    (s.heat.state = .idle → (∀ image since, s.profile ≠ .saving image since) → wp = true →
      exec (.saveProfile wp) s = .next (State.answered 0x22 0
        ({ s with profileWp := wp, profile := .saving (imageOf s.settings) s.trackTime }, ⟨.done, [], none⟩)))) ∧
  (∀ s : State,
    (∀ image since, s.profile = .saving image since → ∃ t, exec .profileSaveComplete s = .next t ∧
      t.nvm = image ∧ t.profile = .ready ∧ t.notices.levels = s.notices.levels ∧ t.notices.ceiling = s.notices.ceiling ∧
      (∀ x : NoticeSource, t.notices.events[x.index] = true ↔ s.notices.events[x.index] = true ∨ x = .profileDone) ∧
      { t with nvm := s.nvm, profile := s.profile, notices := s.notices } = s) ∧
    ((∀ image since, s.profile ≠ .saving image since) → exec .profileSaveComplete s = .next s))

/-- R192: LOAD PROFILE with its tests in order. R192, R195: a load accepts an image exactly when its CRC-16 agrees, every
stored value lies within its range and the stored ranges meet the conditions of R188. Key n is stored in bytes 2(n - 1) and 2n
- 1, the CRC in bytes 80 and 81; that the high byte comes first in the image is the model's choice (log 30). R190: the CRC-16, by
its recurrence over the bits, most significant first, from 0xFFFF with polynomial 0x1021. -/
def Obligations.LoadProfile : Prop :=
  (∀ s : State, s.collecting = true →
    (s.heat.state ≠ .idle → exec .loadProfile s = .next (State.answered 0x23 0 (s, ⟨.wrongState, [], none⟩))) ∧
    (s.heat.state = .idle → (∃ image since, s.profile = .saving image since) →
      exec .loadProfile s = .next (State.answered 0x23 0 (s, ⟨.busy, [], none⟩))) ∧
    (s.heat.state = .idle → (∀ image since, s.profile ≠ .saving image since) →
      ∃ t, exec .loadProfile s = .next (State.answered 0x23 0 (t, ⟨.done, [], none⟩)) ∧
        (imageAccepted s.nvm = true → t = { s.changeSettings (imageSettings s.nvm) with profile := .ready }) ∧
        (imageAccepted s.nvm = false → { t with notices := s.notices } =
            { s.changeSettings Settings.defaults with profile := .defaults } ∧
          t.notices.levels = s.notices.levels ∧ t.notices.ceiling = s.notices.ceiling ∧
          ∀ x : NoticeSource, t.notices.events[x.index] = true ↔ s.notices.events[x.index] = true ∨ x = .profileBad))) ∧
  (∀ m : Image, ∃ c : Settings, imageSettings m = c ∧
    (∀ k : Key, c.vals[k] = m[2 * k.val].toNat * 256 + m[2 * k.val + 1].toNat) ∧
    (imageAccepted m = true ↔
      crc16 (m.toList.take 80) = m[80] ++ m[81] ∧
        (∀ k : Key, settingTable[k].lo ≤ c.vals[k] ∧ c.vals[k] ≤ settingTable[k].hi) ∧
        (∀ l : LinkId, c.first l ≠ 0 → c.first l ≤ c.last l ∧ c.last l ≤ c.first l + 5) ∧
        (c.first .a ≠ 0 → c.first .b ≠ 0 → c.last .a < c.first .b ∨ c.last .b < c.first .a))) ∧
  (∀ bytes : List Byte, crc16 bytes =
    (bytes.flatMap fun x => (List.range 8).map fun k => x.getMsbD k).foldl
      (fun (r : BitVec 16) b => if r.msb = b then r <<< 1 else (r <<< 1) ^^^ 0x1021#16) 0xFFFF#16)

/-- R190, R192, R195: the image of settings that the store may hold is accepted by a load, and gives those settings back. Bytes
80 and 81 are the CRC-16 over bytes 0..79, whose values on two known strings are stated (LoadProfile states its recurrence).
That the high byte of a value and of the CRC comes first is the model's choice (log 30). -/
def Obligations.ProfileImageRoundTrip : Prop :=
  ∀ s : State, s.SettingsLaw →
    imageAccepted (imageOf s.settings) = true ∧ imageSettings (imageOf s.settings) = s.settings ∧
      (∀ k : Key, (imageOf s.settings)[2 * k.val] = byteOf (s.settings.vals[k] / 256) ∧
        (imageOf s.settings)[2 * k.val + 1] = byteOf s.settings.vals[k]) ∧
      (imageOf s.settings)[80] ++ (imageOf s.settings)[81] = crc16 ((imageOf s.settings).toList.take 80) ∧
      crc16 [] = 0xFFFF ∧ crc16 [0x31, 0x32, 0x33, 0x34, 0x35, 0x36, 0x37, 0x38, 0x39] = 0x29B1

/-- R13: OPEN HEAT with its tests in order. -/
def Obligations.OpenHeat : Prop :=
  ∀ (number : BitVec 16) (policy : Byte) (s : State), s.collecting = true →
    (s.heat.state ≠ .idle → exec (.openHeat number policy) s = .next (State.answered 0x30 3 (s, ⟨.wrongState, [], none⟩))) ∧
    (s.heat.state = .idle → (∃ image since, s.profile = .saving image since) →
      exec (.openHeat number policy) s = .next (State.answered 0x30 3 (s, ⟨.busy, [], none⟩))) ∧
    (s.heat.state = .idle → (∀ image since, s.profile ≠ .saving image since) →
      (2 < policy.toNat ∨ number = 0 →
        exec (.openHeat number policy) s = .next (State.answered 0x30 3 (s, ⟨.badArgument, [], none⟩))) ∧
      ∀ p : Policy, policy = p.value → number ≠ 0 →
        exec (.openHeat number policy) s = .next (State.answered 0x30 3
          ({ s with
              heat := { s.heat with
                state := .roster, attempt := 0, id := some ⟨number.toNat, p⟩, gunStamp := none, issued := none,
                warning := none },
              report := none }, ⟨.done, [], none⟩)))

/-- R14, R2, R3, R15: CLOSE HEAT. A recall pulse in progress runs on. That a lane keeps its sensing unit's working fields, which
R2 and R14 do not name, is the model's reading (log 20, DEDUCED). -/
def Obligations.CloseHeat : Prop :=
  ∀ s : State, s.collecting = true →
    (s.heat.state = .idle ∨ s.heat.state = .marks ∨ s.heat.state = .set ∨ s.heat.state = .watch →
      exec .closeHeat s = .next (State.answered 0x31 0 (s, ⟨.wrongState, [], none⟩))) ∧
    (s.heat.state = .roster ∨ s.heat.state = .running ∨ s.heat.state = .done ∨ s.heat.state = .review →
      ∃ t, exec .closeHeat s = .next (State.answered 0x31 0 (t, ⟨.done, [], none⟩)) ∧
        (∀ i : LaneNo, t.lanes[i] =
          { s.lanes[i] with entry := none, phase := .off, baseline := none, onset := none, rt := none }) ∧
        t.bibIndex = [] ∧ t.report = none ∧ t.heat = ⟨.idle, 0, none, none, none, none, none, s.heat.pulseEnd, none⟩ ∧
        { t with lanes := s.lanes, bibIndex := s.bibIndex, report := s.report, heat := s.heat } = s)

/-- R16, R2, R9: ENTER LANE with its tests in order. The index is ordered (RosterLawsKept), and the new entry takes its place.
-/
def Obligations.EnterLane : Prop :=
  ∀ (lane : Byte) (bib : BitVec 16) (s : State), s.collecting = true → s.IndexLaw →
    (s.heat.state ≠ .roster → exec (.enterLane lane bib) s = .next (State.answered 0x32 3 (s, ⟨.wrongState, [], none⟩))) ∧
    (s.heat.state = .roster →
      (lane.toNat = 0 ∨ 10 < lane.toNat ∨ bib.toNat = 0 ∨ 9999 < bib.toNat →
        exec (.enterLane lane bib) s = .next (State.answered 0x32 3 (s, ⟨.badArgument, [], none⟩))) ∧
      ∀ i : LaneNo, lane.toNat = laneNumber i → 1 ≤ bib.toNat → bib.toNat ≤ 9999 →
        (s.settings.closed i = true ∨ (∀ l : LinkId, s.settings.serves l i = false) →
          exec (.enterLane lane bib) s = .next (State.answered 0x32 3 (s, ⟨.badArgument, [], none⟩))) ∧
        (s.settings.closed i = false → (∃ l : LinkId, s.settings.serves l i = true) →
          ((∃ j, (bib.toNat, j) ∈ s.bibIndex) ∨ s.lanes[i].entry ≠ none →
            exec (.enterLane lane bib) s = .next (State.answered 0x32 3 (s, ⟨.duplicate, [], none⟩))) ∧
          ((∀ j, (bib.toNat, j) ∉ s.bibIndex) → s.lanes[i].entry = none →
            ∃ t, exec (.enterLane lane bib) s = .next (State.answered 0x32 3 (t, ⟨.done, [], none⟩)) ∧
              t.bibIndex = s.bibIndex.filter (fun p => p.1 < bib.toNat) ++
                (bib.toNat, i) :: s.bibIndex.filter (fun p => bib.toNat < p.1) ∧
              t.lanes[i] = { s.lanes[i] with
                entry := some ⟨bib.toNat, .eligible, [], none⟩, phase := .off, baseline := none, onset := none, rt := none } ∧
              (∀ j : LaneNo, j ≠ i → t.lanes[j] = s.lanes[j]) ∧
              { t with lanes := s.lanes, bibIndex := s.bibIndex } = s)))

/-- R17, R2, R9: VACATE LANE with its tests in order. That a vacated lane keeps its sensing unit's working fields, which R2 and
R17 do not name, is the model's reading (log 20, DEDUCED). R18, R3, R5: WITHDRAW LANE with its tests in order. -/
def Obligations.VacateAndWithdrawLane : Prop :=
  (∀ (lane : Byte) (s : State), s.collecting = true →
    (s.heat.state ≠ .roster → exec (.vacateLane lane) s = .next (State.answered 0x33 1 (s, ⟨.wrongState, [], none⟩))) ∧
    (s.heat.state = .roster →
      (lane.toNat = 0 ∨ 10 < lane.toNat →
        exec (.vacateLane lane) s = .next (State.answered 0x33 1 (s, ⟨.badArgument, [], none⟩))) ∧
      ∀ i : LaneNo, lane.toNat = laneNumber i →
        (s.lanes[i].entry = none →
          exec (.vacateLane lane) s = .next (State.answered 0x33 1 (s, ⟨.notFound, [], none⟩))) ∧
        (s.lanes[i].entry ≠ none →
          ∃ t, exec (.vacateLane lane) s = .next (State.answered 0x33 1 (t, ⟨.done, [], none⟩)) ∧
            (∀ p, p ∈ t.bibIndex ↔ p ∈ s.bibIndex ∧ p.2 ≠ i) ∧ t.bibIndex.Sublist s.bibIndex ∧
            t.lanes[i] = { s.lanes[i] with entry := none, phase := .off, baseline := none, onset := none, rt := none } ∧
            (∀ j : LaneNo, j ≠ i → t.lanes[j] = s.lanes[j]) ∧ { t with lanes := s.lanes, bibIndex := s.bibIndex } = s))) ∧
  (∀ (lane : Byte) (s : State), s.collecting = true →
    (s.heat.state = .idle ∨ s.heat.state = .set ∨ s.heat.state = .watch →
      exec (.withdrawLane lane) s = .next (State.answered 0x34 1 (s, ⟨.wrongState, [], none⟩))) ∧
    (s.heat.state ≠ .idle → s.heat.state ≠ .set → s.heat.state ≠ .watch →
      (lane.toNat = 0 ∨ 10 < lane.toNat →
        exec (.withdrawLane lane) s = .next (State.answered 0x34 1 (s, ⟨.badArgument, [], none⟩))) ∧
      ∀ i : LaneNo, lane.toNat = laneNumber i →
        (s.lanes[i].entry = none →
          exec (.withdrawLane lane) s = .next (State.answered 0x34 1 (s, ⟨.notFound, [], none⟩))) ∧
        ∀ e, s.lanes[i].entry = some e →
          (e.standing = .withdrawn ∨ e.standing = .disqualified →
            exec (.withdrawLane lane) s = .next (State.answered 0x34 1 (s, ⟨.wrongState, [], none⟩))) ∧
          (e.standing = .eligible ∨ e.standing = .cautioned →
            ∃ t, exec (.withdrawLane lane) s = .next (State.answered 0x34 1 (t, ⟨.done, [], none⟩)) ∧
              t.lanes[i] = { s.lanes[i] with entry := some { e with standing := .withdrawn }, phase := .off } ∧
              (∀ j : LaneNo, j ≠ i → t.lanes[j] = s.lanes[j]) ∧ { t with lanes := s.lanes } = s)))

/-- R19: FIND BIB, over a lawful index (RosterLawsKept): the lane that holds the bib. -/
def Obligations.FindBib : Prop :=
  ∀ (bib : BitVec 16) (s : State), s.collecting = true → s.IndexLaw →
    (bib.toNat = 0 ∨ 9999 < bib.toNat →
      exec (.findBib bib) s = .next (State.answered 0x35 2 (s, ⟨.badArgument, [], none⟩))) ∧
    (1 ≤ bib.toNat → bib.toNat ≤ 9999 →
      (∀ (i : LaneNo) (e : Entry), s.lanes[i].entry = some e → e.bib = bib.toNat →
        exec (.findBib bib) s = .next (State.answered 0x35 2 (s, ⟨.done, [byteOf (laneNumber i)], none⟩))) ∧
      ((∀ (i : LaneNo) (e : Entry), s.lanes[i].entry = some e → e.bib ≠ bib.toNat) →
        exec (.findBib bib) s = .next (State.answered 0x35 2 (s, ⟨.notFound, [], none⟩))))

/-- R27, R28, R26, R107, R127, R160: CALL MARKS with its tests in order. -/
def Obligations.CallMarks : Prop :=
  ∀ s : State, s.collecting = true →
    (s.heat.state ≠ .roster → s.heat.state ≠ .review →
      exec .callMarks s = .next (State.answered 0x40 0 (s, ⟨.wrongState, [], none⟩))) ∧
    (s.heat.state = .roster ∨ s.heat.state = .review →
      ((∀ i : LaneNo, s.lanes[i].eligible = false) →
        exec .callMarks s = .next (State.answered 0x40 0 (s, ⟨.noLanes, [], none⟩))) ∧
      ((∃ i : LaneNo, s.lanes[i].eligible = true) → 15 ≤ s.heat.attempt →
        exec .callMarks s = .next (State.answered 0x40 0 (s, ⟨.limit, [], none⟩))) ∧
      ((∃ i : LaneNo, s.lanes[i].eligible = true) → s.heat.attempt < 15 →
        ∃ t, exec .callMarks s = .next (State.answered 0x40 0 (t, ⟨.done, [], none⟩)) ∧
          t.heat = { s.heat with
            state := .marks, attempt := s.heat.attempt + 1, gunStamp := none, issued := none, closeTime := none,
            deadlineTime := none, warning := s.heat.warning.map fun w => { w with final := true } } ∧
          (∀ i : LaneNo, t.lanes[i] = { s.lanes[i] with
            entry := s.lanes[i].entry.map fun e =>
              { e with charges := e.charges.map fun c => { c with final := true } },
            phase := .off, baseline := none, onset := none, rt := none, block := ⟨0, 0, 0, 0⟩, lastBlock := none,
            settleCount := 0, heldCount := 0, runCount := 0, runStart := none, predecessor := none, lastJudged := none }) ∧
          { t with heat := s.heat, lanes := s.lanes } = s))

/-- R31, R26, R83: CALL SET with its tests in order. No lane is SETTLED at the entry of SET, so the permit is low. -/
def Obligations.CallSet : Prop :=
  ∀ s : State, s.collecting = true →
    (s.heat.state ≠ .marks → exec .callSet s = .next (State.answered 0x41 0 (s, ⟨.wrongState, [], none⟩))) ∧
    (s.heat.state = .marks →
      ((∀ i : LaneNo, s.lanes[i].eligible = false) →
        exec .callSet s = .next (State.answered 0x41 0 (s, ⟨.noLanes, [], none⟩))) ∧
      ((∃ i : LaneNo, s.lanes[i].eligible = true) →
        ∃ t, exec .callSet s = .next (State.answered 0x41 0 (t, ⟨.done, [], none⟩)) ∧
          t.heat = { s.heat with state := .set } ∧
          (∀ i : LaneNo, t.lanes[i] = if s.lanes[i].eligible = true then
            { s.lanes[i] with
              phase := .settling, settleCount := 0, heldCount := 0, block := ⟨0, 0, 0, 0⟩, lastBlock := none }
            else s.lanes[i]) ∧
          (s.gun.permitOut = false → { t with heat := s.heat, lanes := s.lanes } = s)))

/-- R33, R26, R107, R127, R146, R84: STAND UP, whole: the attempt ends, the stand-up report and results are written, and the
heat enters REVIEW. -/
def Obligations.StandUp : Prop :=
  ∀ s : State, s.collecting = true →
    (s.heat.state ≠ .marks → s.heat.state ≠ .set →
      exec .standUp s = .next (State.answered 0x42 0 (s, ⟨.wrongState, [], none⟩))) ∧
    (s.heat.state = .marks ∨ s.heat.state = .set →
      ∃ t, exec .standUp s = .next (State.answered 0x42 0 (t, ⟨.done, [], none⟩)) ∧
        t.heat = { s.heat with state := .review } ∧
        t.report = some ⟨s.heat.attempt, .stoodUp, none, none, [], [], [],
          allLanes.filter fun i => s.lanes[i].eligible && s.lanes[i].phase == .moved, none⟩ ∧
        (∀ i : LaneNo, t.lanes[i] = if s.lanes[i].eligible = true then
          { s.lanes[i] with
            entry := s.lanes[i].entry.map fun e => { e with result := some ⟨.notStarted, false⟩ },
            block := ⟨0, 0, 0, 0⟩, runCount := 0, runStart := none, predecessor := none, lastJudged := none }
          else s.lanes[i]) ∧
        t.gun = { s.gun with permitOut := false } ∧
        (∀ x : NoticeSource, t.notices.events[x.index] = true ↔
          s.notices.events[x.index] = true ∨ x = .attemptClosed ∨ x = .permitChange ∧ s.gun.permitOut = true) ∧
        t.notices.levels = s.notices.levels ∧ t.notices.ceiling = s.notices.ceiling ∧
        { t with heat := s.heat, report := s.report, lanes := s.lanes, gun := s.gun, notices := s.notices } = s)

/-- R39, R41: the issue of a recall: one an attempt, its stamp and pulse, and what it raises. R43, R39, R147: RECALL by heat
state, over the issue of the first part. -/
def Obligations.Recall : Prop :=
  (∀ (s : State) (cause : RecallCause), ∃ t, s.issueRecall cause = t ∧
    (s.heat.issued ≠ none → t = s) ∧
    (s.heat.issued = none →
      t.heat = { s.heat with
        issued := some ⟨cause, s.trackTime⟩,
        pulseEnd := some (s.trackTime + BitVec.ofNat 32 s.settings.recallPulse) } ∧
      t.recallOut = true ∧
      (∀ x : NoticeSource, t.notices.events[x.index] = true ↔
        s.notices.events[x.index] = true ∨ x = .recall ∨ x = .falseStart ∧ cause = .falseStart) ∧
      t.notices.levels = s.notices.levels ∧ t.notices.ceiling = s.notices.ceiling ∧
      { t with heat := s.heat, notices := s.notices } = s)) ∧
  (∀ s : State, s.collecting = true →
    (s.heat.state = .idle ∨ s.heat.state = .roster ∨ s.heat.state = .marks ∨ s.heat.state = .set ∨ s.heat.state = .review →
      exec .recall s = .next (State.answered 0x43 0 (s, ⟨.wrongState, [], none⟩))) ∧
    (s.heat.state = .done → exec .recall s = .next (State.answered 0x43 0 (s, ⟨.tooLate, [], none⟩))) ∧
    (s.heat.state = .watch →
      exec .recall s = .next (State.answered 0x43 0 (s.issueRecall .starter, ⟨.done, [], none⟩))) ∧
    (s.heat.state = .running → s.HeatLaw →
      ∃ (t u : State) (r : Report),
        exec .recall s = .next (State.answered 0x43 0 (t, ⟨.done, [], none⟩)) ∧
        s.issueRecall .starter = u ∧ s.report = some r ∧ t.heat = { u.heat with state := .review, deadlineTime := none } ∧
        t.report = some { r with outcome := .starterRecall, recallCause := some .starter } ∧
        t.heat.issued = some ⟨.starter, s.trackTime⟩ ∧
        { t with heat := u.heat, report := u.report } = u))

/-- R44, R45, R46, R26, R107, R130: the close. The attempt ends, the judgement is written (ClassesAndCulprits,
ResultsAndCharges, OutcomeReportAndWarning), and the heat leaves WATCH by the outcome; a deadline already reached takes
RUNNING on to DONE. Taken only in WATCH, once track time has reached the close time. `timerDue` says that a timer is armed and
reached (R24). -/
def Obligations.CloseExpiry : Prop :=
  ∀ s : State,
    (s.heat.state = .watch → ∀ c, s.heat.closeTime = some c → 0 ≤ stampDiff s.trackTime c →
      ∃ t u, exec .closeExpiry s = .next t ∧
        u = { s with
          heat := { s.heat with closeTime := none }
          lanes := Vector.ofFn fun i : LaneNo => if s.lanes[i].eligible = true then
            { s.lanes[i] with
              block := ⟨0, 0, 0, 0⟩, runCount := 0, runStart := none, predecessor := none, lastJudged := none }
            else s.lanes[i] } ∧
        t.lanes = u.judge.lanes ∧ t.report = some u.closeReport ∧
        t.heat = { s.heat with
          closeTime := none, warning := u.warningAfter,
          state := if u.outcome ≠ .clean then .review
            else if timerDue s.heat.deadlineTime s.trackTime = true then .done else .running,
          deadlineTime := if u.outcome ≠ .clean ∨ timerDue s.heat.deadlineTime s.trackTime = true then none
            else s.heat.deadlineTime } ∧
        (∀ x : NoticeSource, t.notices.events[x.index] = true ↔ s.notices.events[x.index] = true ∨ x = .attemptClosed ∨
          x = .deadlinePassed ∧ u.outcome = .clean ∧ timerDue s.heat.deadlineTime s.trackTime = true) ∧
        t.notices.levels = s.notices.levels ∧ t.notices.ceiling = s.notices.ceiling ∧
        { t with lanes := s.lanes, report := s.report, heat := s.heat, notices := s.notices } = s) ∧
    ((s.heat.state ≠ .watch ∨ ∀ c, s.heat.closeTime = some c → stampDiff s.trackTime c < 0) →
      exec .closeExpiry s = .next s)

/-- R46, R41, R80: the deadline expiry in RUNNING, the end of a recall pulse, and the end of the gun's lockout, each taken
when track time has reached its timer, and with no effect before (log 3). -/
def Obligations.TimersExpire : Prop :=
  ∀ s : State,
    (s.heat.state = .running → ∀ d, s.heat.deadlineTime = some d → 0 ≤ stampDiff s.trackTime d →
      ∃ t, exec .deadlineExpiry s = .next t ∧ t.heat = { s.heat with deadlineTime := none, state := .done } ∧
        (∀ x : NoticeSource, t.notices.events[x.index] = true ↔ s.notices.events[x.index] = true ∨ x = .deadlinePassed) ∧
        t.notices.levels = s.notices.levels ∧ t.notices.ceiling = s.notices.ceiling ∧
        { t with heat := s.heat, notices := s.notices } = s) ∧
    ((s.heat.state ≠ .running ∨ ∀ d, s.heat.deadlineTime = some d → stampDiff s.trackTime d < 0) →
      exec .deadlineExpiry s = .next s) ∧
    (∀ p, s.heat.pulseEnd = some p → 0 ≤ stampDiff s.trackTime p →
      exec .pulseEnd s = .next { s with heat := { s.heat with pulseEnd := none } } ∧
        ({ s with heat := { s.heat with pulseEnd := none } } : State).recallOut = false) ∧
    ((∀ p, s.heat.pulseEnd = some p → stampDiff s.trackTime p < 0) → exec .pulseEnd s = .next s) ∧
    (∀ p, s.gun.lockoutEnd = some p → 0 ≤ stampDiff s.trackTime p →
      exec .lockoutEnd s = .next { s with gun := { s.gun with lockoutEnd := none } }) ∧
    ((∀ p, s.gun.lockoutEnd = some p → stampDiff s.trackTime p < 0) → exec .lockoutEnd s = .next s)

/-- R131, R118, Table 7-2: the class of a lane judged, by its phase and its current RT. R133: culprits and provoked lanes. `E`
is the smallest current RT among the false lanes. -/
def Obligations.ClassesAndCulprits : Prop :=
  (∀ (s : State) (i : LaneNo),
    (s.lanes[i].eligible = false → s.classOf i = none) ∧
    (s.lanes[i].eligible = true →
      (∀ rt, s.lanes[i].phase = .reacted → s.lanes[i].rt = some rt →
        (rt < s.settings.falseLimit → s.classOf i = some (.falseLane rt)) ∧
        (s.settings.falseLimit ≤ rt → s.classOf i = some (.clean rt))) ∧
      (∀ rt, s.lanes[i].phase = .moved → s.lanes[i].rt = some rt → s.classOf i = some (.falseLane rt)) ∧
      (s.lanes[i].phase = .waiting → s.classOf i = some .noReaction) ∧
      (s.lanes[i].phase = .unsure ∨ s.lanes[i].phase = .settling → s.classOf i = some .unsure))) ∧
  (∀ s : State,
    ((∀ (i : LaneNo) (rt : Int), s.classOf i ≠ some (.falseLane rt)) →
      s.culprits = [] ∧ s.provoked = [] ∧ s.earliestFalse = none) ∧
    (∀ E : Int, (∃ i : LaneNo, s.classOf i = some (.falseLane E)) →
      (∀ (i : LaneNo) (rt : Int), s.classOf i = some (.falseLane rt) → E ≤ rt) →
      s.earliestFalse = some E ∧ s.culprits ≠ [] ∧
        (∀ i : LaneNo, i ∈ s.culprits ↔ ∃ rt, s.classOf i = some (.falseLane rt) ∧ rt ≤ E + s.settings.tieTolerance) ∧
        (∀ i : LaneNo, i ∈ s.provoked ↔ ∃ rt, s.classOf i = some (.falseLane rt) ∧ E + s.settings.tieTolerance < rt)) ∧
    s.culprits.Pairwise (· < ·) ∧ s.provoked.Pairwise (· < ·))

/-- R132, R135, R136, R137, R138, R140, Table 7-3: the result and the charge that a close writes for each lane judged, over an
open heat; a lane not judged keeps everything. -/
def Obligations.ResultsAndCharges : Prop :=
  ∀ (s : State) (d : HeatId), s.heat.id = some d → ∀ i : LaneNo,
    (s.lanes[i].eligible = false → s.judge.lanes[i] = s.lanes[i]) ∧
    ∀ e, s.lanes[i].entry = some e → s.lanes[i].eligible = true →
      ∃ f, s.judge.lanes[i] = { s.lanes[i] with entry := some f } ∧ f.bib = e.bib ∧
        f.result = some ⟨(match s.classOf i with
            | some (.clean rt) => .clean rt
            | some .noReaction => .noReaction
            | some (.falseLane rt) => if i ∈ s.culprits then .culprit rt else .provoked rt
            | _ => .unsure),
          s.lanes[i].baseline.any fun b => b.kind == .provisional⟩ ∧
        (i ∉ s.culprits → f.charges = e.charges ∧ f.standing = e.standing) ∧
        (∀ rt, s.classOf i = some (.falseLane rt) → i ∈ s.culprits →
          (d.policy = .field → s.heat.warning = none → f.charges = e.charges ∧ f.standing = e.standing) ∧
          (d.policy = .individual ∨ d.policy = .field ∧ s.heat.warning ≠ none ∨
              d.policy = .caution ∧ e.standing = .cautioned →
            f.charges = e.charges ++ [⟨s.heat.attempt, .disqualify, .sensed rt, false⟩] ∧ f.standing = .disqualified) ∧
          (d.policy = .caution → e.standing = .eligible →
            f.charges = e.charges ++ [⟨s.heat.attempt, .caution, .sensed rt, false⟩] ∧ f.standing = .cautioned))

/-- R137, R139: the field warning after a close. R141, R142: the outcome and the report of a close. The two rows that the
manual says do not occur are log 16. -/
def Obligations.OutcomeReportAndWarning : Prop :=
  (∀ (s : State) (d : HeatId), s.heat.id = some d →
    (∀ w, s.heat.warning = some w → s.warningAfter = some w) ∧
    (s.heat.warning = none → d.policy = .field → s.culprits ≠ [] →
      s.warningAfter = some ⟨s.heat.attempt, s.culprits, false⟩) ∧
    (s.heat.warning = none → d.policy ≠ .field ∨ s.culprits = [] → s.warningAfter = none)) ∧
  (∀ s : State,
    (s.culprits ≠ [] → s.outcome = .falseStart) ∧
    (s.culprits = [] → s.heat.issued = none → s.outcome = .clean) ∧
    (∀ r, s.culprits = [] → s.heat.issued = some r →
      (r.cause = .starter → s.outcome = .starterRecall) ∧ (r.cause = .equipment → s.outcome = .equipmentRecall)) ∧
    s.closeReport.attempt = s.heat.attempt ∧ s.closeReport.outcome = s.outcome ∧ s.closeReport.gunStamp = s.heat.gunStamp ∧
    s.closeReport.recallCause = s.heat.issued.map RecallRecord.cause ∧ s.closeReport.culprits = s.culprits ∧
    s.closeReport.provoked = s.provoked ∧
    (∀ i : LaneNo, i ∈ s.closeReport.unsure ↔ s.classOf i = some .unsure) ∧
    (∀ i : LaneNo, i ∈ s.closeReport.movers ↔ s.lanes[i].eligible = true ∧ s.lanes[i].phase = .moved) ∧
    s.closeReport.earliest = s.earliestFalse)

/-- R150, R152, R153: IMPOSE CHARGE with its tests in order. -/
def Obligations.ImposeCharge : Prop :=
  ∀ (lane effect : Byte) (s : State), s.collecting = true →
    (s.heat.state ≠ .running → s.heat.state ≠ .done → s.heat.state ≠ .review →
      exec (.imposeCharge lane effect) s = .next (State.answered 0x50 2 (s, ⟨.wrongState, [], none⟩))) ∧
    (s.heat.state = .running ∨ s.heat.state = .done ∨ s.heat.state = .review →
      (lane.toNat = 0 ∨ 10 < lane.toNat ∨ 1 < effect.toNat →
        exec (.imposeCharge lane effect) s = .next (State.answered 0x50 2 (s, ⟨.badArgument, [], none⟩))) ∧
      ∀ (i : LaneNo) (x : Effect), lane.toNat = laneNumber i → effect = (if x = .caution then 0 else 1) →
        (s.lanes[i].entry = none →
          exec (.imposeCharge lane effect) s = .next (State.answered 0x50 2 (s, ⟨.notFound, [], none⟩))) ∧
        ∀ e, s.lanes[i].entry = some e →
          (e.standing = .withdrawn ∨ e.standing = .disqualified →
            exec (.imposeCharge lane effect) s = .next (State.answered 0x50 2 (s, ⟨.wrongState, [], none⟩))) ∧
          (e.standing = .eligible ∨ e.standing = .cautioned →
            (x = .caution → (∃ c ∈ e.charges, c.effect = .caution) →
              exec (.imposeCharge lane effect) s = .next (State.answered 0x50 2 (s, ⟨.duplicate, [], none⟩))) ∧
            (x = .disqualify ∨ (∀ c ∈ e.charges, c.effect ≠ .caution) →
              ∃ t, exec (.imposeCharge lane effect) s = .next (State.answered 0x50 2 (t, ⟨.done, [], none⟩)) ∧
                t.lanes[i] = { s.lanes[i] with entry := some { e with
                  charges := e.charges ++ [⟨s.heat.attempt, x, .referee, false⟩],
                  standing := if x = .caution then .cautioned else .disqualified } } ∧
                (∀ j : LaneNo, j ≠ i → t.lanes[j] = s.lanes[j]) ∧ { t with lanes := s.lanes } = s)))

/-- R150, R155, R156: RESCIND CHARGE with its tests in order, over charge lists that keep the law of R8 (RosterLawsKept).
R150, R158: RESCIND FIELD WARNING with its tests in order. -/
def Obligations.RescindCommands : Prop :=
  (∀ (lane : Byte) (s : State), s.collecting = true → s.ChargeLaw →
    (s.heat.state ≠ .running → s.heat.state ≠ .done → s.heat.state ≠ .review →
      exec (.rescindCharge lane) s = .next (State.answered 0x51 1 (s, ⟨.wrongState, [], none⟩))) ∧
    (s.heat.state = .running ∨ s.heat.state = .done ∨ s.heat.state = .review →
      (lane.toNat = 0 ∨ 10 < lane.toNat →
        exec (.rescindCharge lane) s = .next (State.answered 0x51 1 (s, ⟨.badArgument, [], none⟩))) ∧
      ∀ i : LaneNo, lane.toNat = laneNumber i →
        (s.lanes[i].entry = none ∨ (∃ e, s.lanes[i].entry = some e ∧ e.charges = []) →
          exec (.rescindCharge lane) s = .next (State.answered 0x51 1 (s, ⟨.notFound, [], none⟩))) ∧
        ∀ (e : Entry) (older : List Charge) (newest : Charge),
          s.lanes[i].entry = some e → e.charges = older ++ [newest] →
          (newest.final = true →
            exec (.rescindCharge lane) s = .next (State.answered 0x51 1 (s, ⟨.final, [], none⟩))) ∧
          (newest.final = false →
            ∃ t, exec (.rescindCharge lane) s = .next (State.answered 0x51 1 (t, ⟨.done, [], none⟩)) ∧
              t.lanes[i] = { s.lanes[i] with entry := some { e with
                charges := older,
                standing := if e.standing = .withdrawn then .withdrawn else if older = [] then .eligible else .cautioned } } ∧
              (∀ j : LaneNo, j ≠ i → t.lanes[j] = s.lanes[j]) ∧ { t with lanes := s.lanes } = s))) ∧
  (∀ s : State, s.collecting = true →
    (s.heat.state ≠ .running → s.heat.state ≠ .done → s.heat.state ≠ .review →
      exec .rescindFieldWarning s = .next (State.answered 0x52 0 (s, ⟨.wrongState, [], none⟩))) ∧
    (s.heat.state = .running ∨ s.heat.state = .done ∨ s.heat.state = .review →
      (s.heat.warning = none → exec .rescindFieldWarning s = .next (State.answered 0x52 0 (s, ⟨.notFound, [], none⟩))) ∧
      (∀ w, s.heat.warning = some w → w.final = true →
        exec .rescindFieldWarning s = .next (State.answered 0x52 0 (s, ⟨.final, [], none⟩))) ∧
      (∀ w, s.heat.warning = some w → w.final = false →
        exec .rescindFieldWarning s =
          .next (State.answered 0x52 0 ({ s with heat := { s.heat with warning := none } }, ⟨.done, [], none⟩)))))

/-- R76, R77, R79, R80: edges and releases of GUN_IN. While a full reset lasts only the level of the line is followed (log
12), and an edge needs a line that is high, a release one that is low (log 3). -/
def Obligations.GunLine : Prop :=
  ∀ s : State,
    (s.gun.lineLow = false → s.inReset = false → s.gun.qualification = none → s.gun.lockoutEnd = none →
      exec .gunEdge s = .next { s with gun := { s.gun with
        lineLow := true, qualification := some ⟨s.trackTime, s.settings.gunQualify⟩ } }) ∧
    (s.gun.lineLow = false → s.inReset = true ∨ s.gun.qualification ≠ none ∨ s.gun.lockoutEnd ≠ none →
      exec .gunEdge s = .next { s with gun := { s.gun with lineLow := true } }) ∧
    (s.gun.lineLow = true → exec .gunEdge s = .next s) ∧
    (s.gun.lineLow = true → s.gun.qualification ≠ none →
      ∃ t, exec .gunRelease s = .next t ∧ t.gun = { s.gun with lineLow := false, qualification := none } ∧
        (∀ x : NoticeSource, t.notices.events[x.index] = true ↔ s.notices.events[x.index] = true ∨ x = .gunGlitch) ∧
        t.notices.levels = s.notices.levels ∧ t.notices.ceiling = s.notices.ceiling ∧
        { t with gun := s.gun, notices := s.notices } = s) ∧
    (s.gun.lineLow = true → s.gun.qualification = none →
      exec .gunRelease s = .next { s with gun := { s.gun with lineLow := false } }) ∧
    (s.gun.lineLow = false → exec .gunRelease s = .next s)

/-- R78, R81, R37, R38: the acceptance of a qualified edge in every heat state but SET (GunStartsAttempt): in WATCH and
RUNNING it is a second shot, elsewhere it is out of turn. Before the qualification's end, or with the line high, the event
cannot occur (log 3). -/
def Obligations.GunAcceptance : Prop :=
  ∀ s : State,
    (∀ q u, s.gun.qualification = some q → s.gun.lineLow = true →
      0 ≤ stampDiff s.trackTime (q.edge + BitVec.ofNat 32 q.period) →
      u = { s with gun := { s.gun with
        qualification := none, lastAccepted := some q.edge,
        lockoutEnd := some (q.edge + BitVec.ofNat 32 s.settings.gunLockout) } } →
      (s.heat.state ≠ .set → s.heat.state ≠ .watch → s.heat.state ≠ .running →
        ∃ t, exec .gunAcceptance s = .next t ∧
          (∀ x : NoticeSource, t.notices.events[x.index] = true ↔ s.notices.events[x.index] = true ∨ x = .gunOutOfTurn) ∧
          t.notices.levels = s.notices.levels ∧ t.notices.ceiling = s.notices.ceiling ∧
          { t with notices := s.notices } = u) ∧
      (s.heat.state = .watch → exec .gunAcceptance s = .next (u.issueRecall .starter)) ∧
      (s.heat.state = .running → s.HeatLaw →
        ∃ (t v : State) (r : Report), exec .gunAcceptance s = .next t ∧ u.issueRecall .starter = v ∧ s.report = some r ∧
          t.heat = { v.heat with state := .review, deadlineTime := none } ∧
          t.report = some { r with outcome := .starterRecall, recallCause := some .starter } ∧
          { t with heat := v.heat, report := v.report } = v)) ∧
    ((∀ q, s.gun.qualification = some q → s.gun.lineLow = true →
        stampDiff s.trackTime (q.edge + BitVec.ofNat 32 q.period) < 0) →
      exec .gunAcceptance s = .next s)

/-- R35, R36, R78, R84, R103, R104, R105, R120: a gun accepted in SET starts the attempt. The timers are armed from the edge;
every lane of the attempt takes its baseline and phase for WATCH; movers are given their RT and issue the recall. That a mover's
onset is compared with the GUN_QUALIFY in force at the acceptance is the model's reading of R120 (log 25, DEDUCED). -/
def Obligations.GunStartsAttempt : Prop :=
  ∀ (s : State) (q : Qualification), s.heat.state = .set → s.HeatLaw → s.gun.qualification = some q →
    s.gun.lineLow = true → 0 ≤ stampDiff s.trackTime (q.edge + BitVec.ofNat 32 q.period) →
    ∃ t, exec .gunAcceptance s = .next t ∧
      t.gun = ⟨none, some q.edge, some (q.edge + BitVec.ofNat 32 s.settings.gunLockout), false, true⟩ ∧
      t.heat.state = .watch ∧ t.heat.attempt = s.heat.attempt ∧ t.heat.id = s.heat.id ∧ t.heat.warning = s.heat.warning ∧
      t.heat.gunStamp = some q.edge ∧ t.heat.closeTime = some (q.edge + BitVec.ofNat 32 s.settings.closeDelay) ∧
      t.heat.deadlineTime = some (q.edge + BitVec.ofNat 32 s.settings.recallDeadline) ∧
      ((∃ i : LaneNo, s.lanes[i].eligible = true ∧ s.lanes[i].phase = .moved) →
        t.heat.issued = some ⟨.falseStart, s.trackTime⟩ ∧
        t.heat.pulseEnd = some (s.trackTime + BitVec.ofNat 32 s.settings.recallPulse)) ∧
      ((∀ i : LaneNo, s.lanes[i].eligible = true → s.lanes[i].phase ≠ .moved) →
        t.heat.issued = none ∧ t.heat.pulseEnd = s.heat.pulseEnd) ∧
      (∀ i : LaneNo,
        (s.lanes[i].eligible = false → t.lanes[i] = s.lanes[i]) ∧
        (s.lanes[i].eligible = true →
          (s.lanes[i].phase = .settled → t.lanes[i] = { s.lanes[i] with block := ⟨0, 0, 0, 0⟩, phase := .waiting }) ∧
          (∀ b, s.lanes[i].phase = .settling → s.lanes[i].lastBlock = some b → b.mean + b.threshold ≤ 8190 →
            t.lanes[i] = { s.lanes[i] with
              block := ⟨0, 0, 0, 0⟩, phase := .waiting, runCount := 0, runStart := none, predecessor := none,
              lastJudged := none, baseline := some ⟨b.mean, b.mean + b.threshold, .provisional, true⟩ }) ∧
          (s.lanes[i].phase = .settling → (∀ b, s.lanes[i].lastBlock = some b → 8190 < b.mean + b.threshold) →
            t.lanes[i] = { s.lanes[i] with block := ⟨0, 0, 0, 0⟩ }) ∧
          (∀ o, s.lanes[i].phase = .moved → s.lanes[i].onset = some o →
            t.lanes[i] = { s.lanes[i] with
              block := ⟨0, 0, 0, 0⟩,
              rt := some (if (s.settings.gunQualify : Int) < stampDiff o q.edge then -9999
                else max (-9999) (min (stampDiff o q.edge - s.settings.laneOffset i) 9999)) }))) ∧
      (∀ x : NoticeSource, t.notices.events[x.index] = true ↔ s.notices.events[x.index] = true ∨
        (x = .recall ∨ x = .falseStart) ∧ (∃ i : LaneNo, s.lanes[i].eligible = true ∧ s.lanes[i].phase = .moved) ∨
        x = .permitChange ∧ s.gun.permitOut = true) ∧
      t.notices.levels = s.notices.levels ∧ t.notices.ceiling = s.notices.ceiling ∧
      { t with gun := s.gun, heat := s.heat, lanes := s.lanes, notices := s.notices } = s

/-- R82, R83: an evaluation of the permit. PERMIT_OUT takes the value of the five conditions, and PERMIT_CHANGE is raised
exactly at a change. -/
def Obligations.PermitEvaluation : Prop :=
  ∀ s : State, ∃ t, s.settlePermit = t ∧
    (t.gun.permitOut = true ↔
      s.heat.state = .set ∧ (∃ i : LaneNo, s.lanes[i].eligible = true) ∧
        (∀ i : LaneNo, s.lanes[i].eligible = true → s.lanes[i].phase = .settled) ∧
        (∀ i : LaneNo, s.lanes[i].phase ≠ .moved) ∧
        ∀ (l : LinkId) (i : LaneNo), s.lanes[i].eligible = true → s.settings.serves l i = true → (s.link l).align = .locked) ∧
    (∀ x : NoticeSource, t.notices.events[x.index] = true ↔
      s.notices.events[x.index] = true ∨ x = .permitChange ∧ t.gun.permitOut ≠ s.gun.permitOut) ∧
    t.notices.levels = s.notices.levels ∧ t.notices.ceiling = s.notices.ceiling ∧
    { t with gun := { t.gun with permitOut := s.gun.permitOut }, notices := s.notices } = s

/-- R53, R56: the hunt of a receiver in SEARCH, and a transition of its line. A word is found only where its bits are the
alignment word, and the row has no effect otherwise (log 3); during a full reset nothing but the level of a line is followed
(log 12). R54, R58, R59: a frame position in CONFIRM. `u` is the state before the permit is evaluated (PermitEvaluation): the
third match locks the link and its frame is delivered; a word that differs takes the receiver to SEARCH with no loss counted. The
position is taken when track time has reached it, with no frame in progress (log 6, log 9). R55, R56, R59, R65: a frame position
in LOCKED: a good word, an errored word, a silent frame, and the third errored word, which loses the link (LinkLoss). Before
track time reaches the position, or with a frame in progress, there is no position to take, and the row leaves the state (log
3). Whether a frame is silent is judged over the 256 bit periods that end at its position (log 8, DEDUCED, unsafe): that is the
operand `silent`. That the confirm count is 0 once LOCKED is entered is the model's choice (log 28). -/
def Obligations.LinkAlignment : Prop :=
  (∀ (l : LinkId) (s : State),
    ((s.link l).align = .search → s.inReset = false →
      ∃ t, exec (.searchWordFound l 0xC5A3) s = .next t ∧
        t.link l = { s.link l with align := .confirm, framePos := some (s.trackTime + 5), confirmCount := 0 } ∧
        (∀ o, o ≠ l → t.link o = s.link o) ∧ { t with linkA := s.linkA, linkB := s.linkB } = s) ∧
    (∀ bits, bits ≠ 0xC5A3 ∨ (s.link l).align ≠ .search ∨ s.inReset = true →
      exec (.searchWordFound l bits) s = .next s) ∧
    ∃ t, exec (.lineTransition l) s = .next t ∧
      t.link l = { s.link l with
        lineHigh := !(s.link l).lineHigh,
        lastTransition := if s.inReset = true ∨ (s.link l).align = .disabled then (s.link l).lastTransition else s.trackTime } ∧
      (∀ o, o ≠ l → t.link o = s.link o) ∧ { t with linkA := s.linkA, linkB := s.linkB } = s) ∧
  (∀ (l : LinkId) (silent : Bool) (bits : BitVec 16) (s : State) (p : Stamp),
    s.inReset = false → (s.link l).align = .confirm → (s.link l).framePos = some p → 0 ≤ stampDiff s.trackTime p →
    (s.link l).frame = none →
    ∃ u : State, exec (.framePosition l silent bits) s = .next u.settlePermit ∧
      (bits ≠ 0xC5A3 → u.link l = { s.link l with
        align := .search, framePos := none, confirmCount := 0, erroredCount := 0, frame := none }) ∧
      (bits = 0xC5A3 → (s.link l).confirmCount < 2 →
        u.link l = { s.link l with confirmCount := (s.link l).confirmCount + 1, framePos := some (p + 5) }) ∧
      (bits = 0xC5A3 → 2 ≤ (s.link l).confirmCount →
        u.link l = { s.link l with
          align := .locked, framePos := some (p + 5), confirmCount := 0, erroredCount := 0,
          prevSeq := Vector.replicate 6 none,
          frame := some ⟨p, p - BitVec.ofNat 32 (s.settings.latency l), true⟩ }) ∧
      (∀ o, o ≠ l → u.link o = s.link o) ∧ { u with linkA := s.linkA, linkB := s.linkB } = s) ∧
  (∀ (l : LinkId) (silent : Bool) (bits : BitVec 16) (s : State),
    (∀ p, s.inReset = false → (s.link l).align = .locked → (s.link l).framePos = some p → 0 ≤ stampDiff s.trackTime p →
      (s.link l).frame = none →
      (silent = false → bits ≠ 0xC5A3 → 2 ≤ (s.link l).erroredCount →
        exec (.framePosition l silent bits) s = .next (s.loseLink l)) ∧
      (silent = true ∨ bits = 0xC5A3 ∨ (s.link l).erroredCount < 2 →
        ∃ t, exec (.framePosition l silent bits) s = .next t ∧
          t.link l = { s.link l with
            framePos := some (p + 5),
            erroredCount := if silent = true then (s.link l).erroredCount
              else if bits = 0xC5A3 then 0 else (s.link l).erroredCount + 1,
            frame := some ⟨p, p - BitVec.ofNat 32 (s.settings.latency l), decide (silent = false ∧ bits = 0xC5A3)⟩ } ∧
          (∀ o, o ≠ l → t.link o = s.link o) ∧ { t with linkA := s.linkA, linkB := s.linkB } = s)) ∧
    (s.inReset = true ∨ (s.link l).framePos = none ∨ (s.link l).frame ≠ none ∨
        (∀ p, (s.link l).framePos = some p → stampDiff s.trackTime p < 0) →
      exec (.framePosition l silent bits) s = .next s))

/-- R55, R56, R66, R70, R101, R125, R126, Table 3-7: the loss of a link, taken by silence (R56) or by the third errored frame
(LinkAlignment). `u` is the state before the permit is evaluated. -/
def Obligations.LinkLoss : Prop :=
  ∀ (l : LinkId) (s : State),
    ((s.link l).align = .locked → 0 ≤ stampDiff s.trackTime ((s.link l).lastTransition + 20) →
      exec (.linkSilence l) s = .next (s.loseLink l)) ∧
    ((s.link l).align ≠ .locked ∨ stampDiff s.trackTime ((s.link l).lastTransition + 20) < 0 →
      exec (.linkSilence l) s = .next s) ∧
    ∃ u : State, s.loseLink l = u.settlePermit ∧
      u.link l = { s.link l with
        align := .search, framePos := none, confirmCount := 0, erroredCount := 0, frame := none,
        losses := min ((s.link l).losses + 1) 255 } ∧
      (∀ o, o ≠ l → u.link o = s.link o) ∧
      (∀ i : LaneNo,
        ((s.settings.slotOf l i).isSome = true → s.heat.state = .set →
            s.lanes[i].phase = .settling ∨ s.lanes[i].phase = .settled →
          u.lanes[i] = { s.lanes[i] with
            phase := .settling, settleCount := 0, heldCount := 0, block := ⟨0, 0, 0, 0⟩, runCount := 0, runStart := none,
            predecessor := none, lastJudged := none,
            baseline := s.lanes[i].baseline.map fun b => { b with inUse := false } }) ∧
        ((s.settings.slotOf l i).isSome = true → s.heat.state = .watch →
            s.lanes[i].phase = .settling ∨ s.lanes[i].phase = .waiting →
          u.lanes[i] = { s.lanes[i] with
            phase := .unsure, runCount := 0, runStart := none, predecessor := none, lastJudged := none }) ∧
        ((s.settings.slotOf l i = none ∨ s.heat.state ≠ .set ∧ s.heat.state ≠ .watch ∨
            s.heat.state = .set ∧ s.lanes[i].phase ≠ .settling ∧ s.lanes[i].phase ≠ .settled ∨
            s.heat.state = .watch ∧ s.lanes[i].phase ≠ .settling ∧ s.lanes[i].phase ≠ .waiting) →
          u.lanes[i] = s.lanes[i])) ∧
      (∀ hit : Bool,
        (hit = true ↔ s.heat.state = .watch ∧ ∃ i : LaneNo, (s.settings.slotOf l i).isSome = true ∧
          (s.lanes[i].phase = .settling ∨ s.lanes[i].phase = .waiting)) →
        u.heat = (if hit = true ∧ s.settings.unsureRecall = true ∧ s.heat.issued = none then { s.heat with
            issued := some ⟨.equipment, s.trackTime⟩,
            pulseEnd := some (s.trackTime + BitVec.ofNat 32 s.settings.recallPulse) }
          else s.heat) ∧
        ∀ x : NoticeSource, u.notices.events[x.index] = true ↔ s.notices.events[x.index] = true ∨
          hit = true ∧ (x = .laneUnsure ∨ x = .recall ∧ s.settings.unsureRecall = true ∧ s.heat.issued = none)) ∧
      u.notices.levels = s.notices.levels ∧ u.notices.ceiling = s.notices.ceiling ∧
      { u with linkA := s.linkA, linkB := s.linkB, lanes := s.lanes, heat := s.heat, notices := s.notices } = s

/-- R60: slot k of a link carries the lane FIRST + k - 1 of its range when that lane is not closed; a lane carried by a slot
is one the roster lets be entered. R62, R63, R90, Tables 3-2 and 12-1: the tests of a slot of a frame with a good word, in
order, over the fields that the slot's 40 bits spell. -/
def Obligations.Slots : Prop :=
  (∀ s : State, s.SettingsLaw → ∀ (l : LinkId) (i : LaneNo),
    (∀ k : Fin 6, s.settings.slotOf l i = some k ↔
      s.settings.first l ≠ 0 ∧ laneNumber i = s.settings.first l + k.val ∧ laneNumber i ≤ s.settings.last l ∧
        s.settings.closed i = false) ∧
    (∀ j k, s.settings.slotOf .a i = some j → s.settings.slotOf .b i ≠ some k) ∧
    (s.settings.canEnter i = true ↔ (s.settings.slotOf .a i).isSome = true ∨ (s.settings.slotOf .b i).isSome = true)) ∧
  (∀ (front rear : BitVec 12) (fo ro fault present : Bool) (seq : BitVec 4) (check : BitVec 8) (prev : Option (BitVec 4))
    (w : BitVec 40),
    w = front ++ rear ++ BitVec.ofBool fo ++ BitVec.ofBool ro ++ BitVec.ofBool fault ++ BitVec.ofBool present ++ seq ++ check →
    (check ≠ slotCrc w → judgeSlot prev w = ⟨none, prev, true, false⟩) ∧
    (check = slotCrc w → present = false → judgeSlot prev w = ⟨none, prev, false, false⟩) ∧
    (check = slotCrc w → present = true →
      judgeSlot prev w = ⟨if fault = true ∨ prev = some seq then none
          else some ((if fo then 4095 else front.toNat) + (if ro then 4095 else rear.toNat)),
        some seq, false, decide (prev ≠ none ∧ prev ≠ some seq ∧ prev ≠ some (seq - 1))⟩) ∧
    ((slotForce w ≤ 8190) ∧ slotCrc 0 = 0 ∧ slotCrc (BitVec.allOnes 40) = 0xDE))

/-- R59, R61, R65, R70: the arrival of a frame. `o k` is what becomes of slot `k`: its tests in a frame with a good word
(Slots), and a held sample with nothing counted otherwise. Each lane of a slot takes one sample, and the lanes' reports are
taken, the false onsets first (R40). `u` is the state before the permit is evaluated. The frame arrives at least 4 units after
its stamp (log 9). With no frame in progress or before its arrival the row leaves the state (log 3), and so it does while a full
reset lasts (log 12). -/
def Obligations.FrameArrival : Prop :=
  ∀ (l : LinkId) (slots : Vector (BitVec 40) 6) (s : State),
    (∀ f, s.inReset = false → (s.link l).frame = some f → 0 ≤ stampDiff s.trackTime (f.stamp + 4) →
      ∀ (o : Fin 6 → SlotOutcome) (d : LaneNo → Lane × Option LaneReport),
      (∀ k, o k = if f.good = true then judgeSlot (s.link l).prevSeq[k] slots[k]
        else ⟨none, (s.link l).prevSeq[k], false, false⟩) →
      (∀ i, d i = match s.settings.slotOf l i with
        | none => (s.lanes[i], none)
        | some k => s.lanes[i].takeSample s.settings s.heat.state s.heat.gunStamp i ⟨f.sampleTime, (o k).force⟩) →
      ∃ u : State, exec (.frameArrival l slots) s = .next u.settlePermit ∧
        (∀ i : LaneNo, u.lanes[i] = (d i).1) ∧
        (u.link l).frame = none ∧
        (∀ k : Fin 6, (u.link l).prevSeq[k] =
          if s.settings.mapped l k = true then (o k).prev else (s.link l).prevSeq[k]) ∧
        (u.link l).checkFailures = min ((s.link l).checkFailures +
          ((List.finRange 6).filter fun k => s.settings.mapped l k && (o k).checkFailed).length) 65535 ∧
        (u.link l).seqFaults = min ((s.link l).seqFaults +
          ((List.finRange 6).filter fun k => s.settings.mapped l k && (o k).sequenceFault).length) 65535 ∧
        { u.link l with
          frame := (s.link l).frame, prevSeq := (s.link l).prevSeq, checkFailures := (s.link l).checkFailures,
          seqFaults := (s.link l).seqFaults } = s.link l ∧
        (∀ m, m ≠ l → u.link m = s.link m) ∧
        u.heat = (if s.heat.issued ≠ none then s.heat
          else if (∃ i, (d i).2 = some .falseOnset) then { s.heat with
            issued := some ⟨.falseStart, s.trackTime⟩,
            pulseEnd := some (s.trackTime + BitVec.ofNat 32 s.settings.recallPulse) }
          else if (∃ i, (d i).2 = some .unsureLane) ∧ s.settings.unsureRecall = true then { s.heat with
            issued := some ⟨.equipment, s.trackTime⟩,
            pulseEnd := some (s.trackTime + BitVec.ofNat 32 s.settings.recallPulse) }
          else s.heat) ∧
        (∀ x : NoticeSource, u.notices.events[x.index] = true ↔ s.notices.events[x.index] = true ∨
          x = .earlyMove ∧ (∃ i, (d i).2 = some .earlyMove) ∨ x = .laneUnsure ∧ (∃ i, (d i).2 = some .unsureLane) ∨
          x = .recall ∧ u.heat.issued ≠ s.heat.issued ∨
          x = .falseStart ∧ s.heat.issued = none ∧ ∃ i, (d i).2 = some .falseOnset) ∧
        u.notices.levels = s.notices.levels ∧ u.notices.ceiling = s.notices.ceiling ∧
        { u with linkA := s.linkA, linkB := s.linkB, lanes := s.lanes, heat := s.heat, notices := s.notices } = s) ∧
    (s.inReset = true ∨ (s.link l).frame = none ∨
        (∀ f, (s.link l).frame = some f → stampDiff s.trackTime (f.stamp + 4) < 0) →
      exec (.frameArrival l slots) s = .next s)

/-- R89, R91, R99, R100, R101: a sample delivered outside SET and WATCH, to a lane that is OFF, or to a MOVED lane in SET. The
last fresh drive force is noted whatever becomes of the sample. R89, R91, R92, R97, R100, R111, R119: a sample taken in SET by
a SETTLING or SETTLED lane. `m` is the lane with the sample noted and its held count brought up to date; Detection and
Blocks say what follows. That the sample which confirms an onset in SET does not join the block, and that the block is emptied,
is the model's reading of R89 and R119 (log 22, DEDUCED). R99, R111, R117, R118, R122, R124, R126: a sample taken in WATCH by a
lane of the attempt, against gun stamp `gun`. -/
def Obligations.Samples : Prop :=
  (∀ (c : Settings) (h : HeatState) (gun : Option Stamp) (i : LaneNo) (x : Sample) (l m : Lane),
    m = { l with lastForce := if x.force = none then l.lastForce else x.force } →
    (h ≠ .set → h ≠ .watch → l.takeSample c h gun i x = (m, none)) ∧
    (l.phase = .off → l.takeSample c h gun i x = (m, none)) ∧
    (h = .set → l.phase = .moved →
      l.takeSample c h gun i x =
        ({ m with heldCount := if x.force = none then min (l.heldCount + 1) c.staleLimit else 0 }, none))) ∧
  (∀ (c : Settings) (gun : Option Stamp) (i : LaneNo) (x : Sample) (l m : Lane),
    l.phase = .settling ∨ l.phase = .settled →
    m = { l with
      lastForce := if x.force = none then l.lastForce else x.force,
      heldCount := if x.force = none then min (l.heldCount + 1) c.staleLimit else 0 } →
    (x.force = none → c.staleLimit ≤ l.heldCount + 1 →
      l.takeSample c .set gun i x = ({ m with
        phase := .settling, settleCount := 0, block := ⟨0, 0, 0, 0⟩, runCount := 0, runStart := none, predecessor := none,
        lastJudged := none, baseline := l.baseline.map fun b => { b with inUse := false } }, none)) ∧
    (x.force = none → l.heldCount + 1 < c.staleLimit →
      l.takeSample c .set gun i x = (m.joinBlock c (l.lastForce.getD 0), none)) ∧
    (∀ f, x.force = some f → l.phase = .settling → l.takeSample c .set gun i x = (m.joinBlock c f, none)) ∧
    (∀ f n, x.force = some f → l.phase = .settled → m.detect c ⟨x.time, f⟩ = (n, none) →
      l.takeSample c .set gun i x = (n.joinBlock c f, none)) ∧
    (∀ f n onset, x.force = some f → l.phase = .settled → m.detect c ⟨x.time, f⟩ = (n, some onset) →
      l.takeSample c .set gun i x =
        ({ n with phase := .moved, onset := some onset, block := ⟨0, 0, 0, 0⟩ }, some .earlyMove))) ∧
  (∀ (c : Settings) (gun : Stamp) (i : LaneNo) (x : Sample) (l m : Lane), l.phase ≠ .off →
    m = { l with
      lastForce := if x.force = none then l.lastForce else x.force,
      heldCount := if x.force = none then min (l.heldCount + 1) c.staleLimit else 0 } →
    (x.force = none → c.staleLimit ≤ l.heldCount + 1 → l.phase = .waiting ∨ l.phase = .settling →
      l.takeSample c .watch (some gun) i x = ({ m with
        phase := .unsure, runCount := 0, runStart := none, predecessor := none, lastJudged := none }, some .unsureLane)) ∧
    (x.force = none → l.heldCount + 1 < c.staleLimit ∨ l.phase ≠ .waiting ∧ l.phase ≠ .settling →
      l.takeSample c .watch (some gun) i x = (m, none)) ∧
    (∀ f, x.force = some f → l.phase ≠ .waiting → l.takeSample c .watch (some gun) i x = (m, none)) ∧
    (∀ f n, x.force = some f → l.phase = .waiting → m.detect c ⟨x.time, f⟩ = (n, none) →
      l.takeSample c .watch (some gun) i x = (n, none)) ∧
    (∀ f n onset rt, x.force = some f → l.phase = .waiting → m.detect c ⟨x.time, f⟩ = (n, some onset) →
      rt = max (-9999) (min (stampDiff onset gun - c.laneOffset i) 9999) →
      rtInRange rt ∧
        l.takeSample c .watch (some gun) i x = ({ n with phase := .reacted, onset := some onset, rt := some rt },
          if rt < c.falseLimit then some .falseOnset else none)))

/-- R110, R111, R112, R113: a fresh sample judged against the level of a baseline in use. `run` is the run count after any
lapse: a run lapses when the sample lies more than 5 x (CONFIRM_COUNT + 2) units after its start. Against no level nothing is
judged. -/
def Obligations.Detection : Prop :=
  ∀ (c : Settings) (p : SamplePoint) (l : Lane), 2 ≤ c.confirmCount →
    ((∀ b, l.baseline = some b → b.inUse = false) → l.detect c p = (l, none)) ∧
    ∀ (b : Baseline) (run : Nat), l.baseline = some b → b.inUse = true →
      run = (if l.runStart.any (fun q => decide ((5 * (c.confirmCount + 2) : Int) < stampDiff p.time q.time)) then 0
        else l.runCount) →
      (p.force < b.level → l.detect c p =
        ({ l with runCount := 0, runStart := none, predecessor := none, lastJudged := some p }, none)) ∧
      (b.level ≤ p.force → run = 0 → l.detect c p =
        ({ l with runCount := 1, runStart := some p, predecessor := l.lastJudged, lastJudged := some p }, none)) ∧
      (b.level ≤ p.force → 0 < run → run + 1 < c.confirmCount → l.detect c p =
        ({ l with runCount := run + 1, lastJudged := some p }, none)) ∧
      (∀ q, b.level ≤ p.force → 0 < run → c.confirmCount ≤ run + 1 → l.runStart = some q → l.detect c p =
        ({ l with runCount := 0, runStart := none, predecessor := none, lastJudged := none },
          some (onsetStamp b.level q l.predecessor)))

/-- R114, R115, R116: the onset stamp. With a bracket it lies between the two sample times, at the crossing rounded to the
nearest unit, a half up; without one it is the run start's sample time. -/
def Obligations.OnsetStamp : Prop :=
  ∀ (level : Nat) (q : SamplePoint),
    onsetStamp level q none = q.time ∧
    ∀ p : SamplePoint,
      (level ≤ p.force → onsetStamp level q (some p) = q.time) ∧
      (p.force < level → level ≤ q.force → 0 ≤ stampDiff q.time p.time →
        ∃ offset : Int, stampDiff (onsetStamp level q (some p)) p.time = offset ∧
          0 ≤ offset ∧ offset ≤ stampDiff q.time p.time ∧
          2 * (q.force - p.force : Int) * offset ≤
            2 * stampDiff q.time p.time * (level - p.force) + (q.force - p.force) ∧
          2 * stampDiff q.time p.time * (level - p.force) + (q.force - p.force) <
            2 * (q.force - p.force : Int) * (offset + 1))

/-- R92: the statistics of a block are those of the samples that joined it. R92, R93, R94, R95, R96, R97: a sample that joins
a block in SET; the 40th ends it. `b` is the block with the sample, `mean` and `thr` are its values, and `m` is the lane with
the block emptied and kept as the last complete block. -/
def Obligations.Blocks : Prop :=
  (∀ (f : Nat) (fs : List Nat), ∃ b, (f :: fs).foldl Block.join ⟨0, 0, 0, 0⟩ = b ∧
    b.count = (f :: fs).length ∧ b.sum = (f :: fs).sum ∧ (∀ g ∈ f :: fs, b.minimum ≤ g ∧ g ≤ b.maximum) ∧
    b.minimum ∈ f :: fs ∧ b.maximum ∈ f :: fs) ∧
  (∀ (c : Settings) (f : Nat) (l m : Lane) (b : Block) (mean thr : Nat), b = l.block.join f →
    mean = b.sum / 40 → thr = max c.thresholdFloor (mean * c.thresholdRatio / 256) →
    m = { l with block := ⟨0, 0, 0, 0⟩, lastBlock := some ⟨mean, thr⟩ } →
    (b.count < 40 → l.joinBlock c f = { l with block := b }) ∧
    (40 ≤ b.count → l.phase = .settling →
      (c.steadyBand < b.maximum - b.minimum → l.joinBlock c f = { m with
        settleCount := 0, runCount := 0, runStart := none, predecessor := none, lastJudged := none,
        baseline := l.baseline.map fun b => { b with inUse := false } }) ∧
      (b.maximum - b.minimum ≤ c.steadyBand →
        (l.settleCount + 1 < c.settleBlocks → l.joinBlock c f = { m with settleCount := l.settleCount + 1 }) ∧
        (c.settleBlocks ≤ l.settleCount + 1 → mean + thr ≤ 8190 → l.joinBlock c f = { m with
          phase := .settled, settleCount := c.settleBlocks, runCount := 0, runStart := none, predecessor := none,
          lastJudged := none, baseline := some ⟨mean, mean + thr, .settled, true⟩ }) ∧
        (c.settleBlocks ≤ l.settleCount + 1 → 8190 < mean + thr →
          l.joinBlock c f = { m with settleCount := c.settleBlocks - 1 }))) ∧
    (40 ≤ b.count → l.phase = .settled →
      (0 < l.runCount → l.joinBlock c f = m) ∧
      (l.runCount = 0 → b.maximum - b.minimum ≤ c.steadyBand → mean + thr ≤ 8190 →
        l.joinBlock c f = { m with baseline := some ⟨mean, mean + thr, .settled, true⟩ }) ∧
      (l.runCount = 0 → c.steadyBand < b.maximum - b.minimum ∨ 8190 < mean + thr → l.joinBlock c f = { m with
        phase := .settling, settleCount := 0, runCount := 0, runStart := none, predecessor := none, lastJudged := none,
        baseline := l.baseline.map fun b => { b with inUse := false } })))

/-- R174, R176, Table 12-2: the bytes of the thirty port commands decode to the command with every argument at every value,
and no other bytes decode to it. -/
def Obligations.PortCodecRoundTrip : Prop :=
  ∀ (wp : Bool) (i : Instr) (bytes : List Byte),
    (encodeCommand i = some bytes → (∀ v, i = .saveProfile v → v = wp) → decodeCommand wp bytes = some i) ∧
    (decodeCommand wp bytes = some i → encodeCommand i = some bytes) ∧
    (encodeCommand i = some bytes → ∃ code args, bytes = code :: args ∧ i.code = some code ∧
      argumentCount code = some args.length)

/-- R186, R188, R191: the law of the settings store, kept by every step. -/
def Obligations.SettingsLawKept : Prop :=
  ∀ s t : State, s.SettingsLaw → step s = .next t → t.SettingsLaw

/-- R8, R9, R6, R1: the laws of the charge list and standing, of the bib index, and of closed and unserved lanes, each kept by
every step. -/
def Obligations.RosterLawsKept : Prop :=
  ∀ s t : State, step s = .next t →
    (s.ChargeLaw → t.ChargeLaw) ∧ (s.IndexLaw → t.IndexLaw) ∧ (s.RosterLaw → t.RosterLaw)

/-- R29, R161, Tables 1-5, 2-1 and 6-2: the laws of the heat record, of finality and of the lane phases, kept by every step.
-/
def Obligations.HeatLawsKept : Prop :=
  ∀ s t : State, step s = .next t → s.HeatLaw →
    t.HeatLaw ∧ (s.FinalityLaw → t.FinalityLaw) ∧ (s.PhaseLaw → t.PhaseLaw)

/-- R143, R139, R117: the laws of the attempt report, of the field warning and of reaction times, kept by every step. -/
def Obligations.JudgementLawsKept : Prop :=
  ∀ s t : State, step s = .next t →
    (s.ReportLaw → t.ReportLaw) ∧ (s.WarningLaw → t.WarningLaw) ∧ (s.RtLaw → t.RtLaw)

/-- R98, Tables 5-1 and 6-1: the laws of the level and of the sensing units' counts, kept by every step under the settings law
(SettingsLawKept). R82, R42, R76, R77: the laws of PERMIT_OUT, of RECALL_OUT and of the gun capture block, kept by every step
under the settings law (SettingsLawKept). -/
def Obligations.SensingAndOutputLawsKept : Prop :=
  (∀ s t : State, step s = .next t → s.SettingsLaw → (s.LevelLaw → t.LevelLaw) ∧ (s.CountLaw → t.CountLaw)) ∧
  (∀ s t : State, step s = .next t → s.SettingsLaw →
    (s.PermitLaw → t.PermitLaw) ∧ (s.PulseLaw → t.PulseLaw) ∧ (s.GunLaw → t.GunLaw))

/-- R52, R57, R60, R70 and Table 10-1: the laws of the two link receivers and of the command port, kept by every step. In the
port's law the clause of an armed soft reset is over the model's flag (log 14, DEDUCED), and the phase of the port while a full
reset lasts and after one that ends with select low is the model's choice (log 31, log 13); the others are Table 10-1 and R174. -/
def Obligations.LinkAndPortLawsKept : Prop :=
  ∀ s t : State, step s = .next t → (s.LinkLaw → t.LinkLaw) ∧ (s.PortLaw → t.PortLaw)

/-- R160, R161, R7: a final charge entry stays in its lane's list, as it is, and a final warning in the heat record, at every
step but one that closes the heat or resets the part, after which the heat is in IDLE. -/
def Obligations.FinalEntriesStay : Prop :=
  ∀ s t : State, s.HeatLaw → s.FinalityLaw → step s = .next t → t.heat.state ≠ .idle →
    (∀ (i : LaneNo) (e : Entry) (c : Charge), s.lanes[i].entry = some e → c ∈ e.charges → c.final = true →
      ∃ f, t.lanes[i].entry = some f ∧ c ∈ f.charges) ∧
    ∀ w, s.heat.warning = some w → w.final = true → t.heat.warning = some w

/-- R25, Table 2-2, R29: the heat state changes only as Table 2-2 lists, or to IDLE by a reset; the attempt number changes
only with the heat's entry to MARKS, which raises it by 1, and to 0 as the heat enters IDLE. -/
def Obligations.HeatTransitions : Prop :=
  ∀ s t : State, s.HeatLaw → step s = .next t → t.heat.state ≠ .idle →
    (t.heat.state = s.heat.state ∨ (s.heat.state, t.heat.state) ∈
        ([(.idle, .roster), (.roster, .marks), (.marks, .set), (.marks, .review), (.set, .watch), (.set, .review),
          (.watch, .running), (.watch, .done), (.watch, .review), (.running, .done), (.running, .review),
          (.review, .marks)] : List (HeatState × HeatState))) ∧
      (t.heat.state = .marks → s.heat.state ≠ .marks → t.heat.attempt = s.heat.attempt + 1) ∧
      (¬ (t.heat.state = .marks ∧ s.heat.state ≠ .marks) → t.heat.attempt = s.heat.attempt)

/-- R174, R175, R176, R179, R181, R184: the pins of the port, edge by edge. Edges wait in a queue of their own (log 27, DESIGN
CHOICE), and the port is clocked while select is low and no full reset lasts (R185). The eight rising edges of a byte position
sample SDI, most significant bit first. The rising edge that completes a command's last byte takes the command, and before it no
owner receives anything; one that completes a code byte of no command is UNKNOWN_COMMAND_CODE. The falling edge that ends the
result byte is a moment of an armed soft reset (log 14), the one that begins a stream's first record enters Streaming, and the
one that begins a later record copies it. SDO holds the bit placed at the last falling edge, most significant bit first, and is
high-impedance with select high and in a full reset. -/
def Obligations.PortPins : Prop :=
  (∀ (s : State) (sdi : Bool),
    s.takeEdge .selectFall = exec .transactionStart s ∧ s.takeEdge .selectRise = exec .transactionEnd s ∧
      (∀ high, s.takeEdge (.profileWp high) = .next { s with profileWp := high }) ∧
      (s.sckHigh = true → s.takeEdge (.sckRise sdi) = .next s) ∧ (s.sckHigh = false → s.takeEdge .sckFall = .next s) ∧
      (s.inReset = true ∨ s.port.phase = .deselected →
        (s.sckHigh = false → s.takeEdge (.sckRise sdi) = .next { s with sckHigh := true }) ∧
          (s.sckHigh = true → s.takeEdge .sckFall = .next { s with sckHigh := false }) ∧ s.sdo = none)) ∧
  (∀ (s : State) (sdi : Bool) (n k : Nat), s.inReset = false → s.port.phase ≠ .deselected → s.sckHigh = false →
    s.port.bitCount = some n → s.port.bytePos = some k →
    s.sdo = some ((s.port.byteSent k).getMsbD n) ∧
    (n < 7 ∨ n = 7 ∧ s.port.phase ≠ .collecting →
      s.takeEdge (.sckRise sdi) = .next { s with
        sckHigh := true,
        port := { s.port with
          shift := s.port.shift.shiftConcat sdi, bitCount := some (if n = 7 then 0 else n + 1),
          bytePos := some (if n = 7 then k + 1 else k) } })) ∧
  (∀ (s t : State) (sdi : Bool), s.PortLaw → s.takeEdge (.sckRise sdi) = .next t → t.sdo = s.sdo) ∧
  (∀ (s u : State) (k : Nat), s.inReset = false → s.port.phase ≠ .deselected → s.sckHigh = true → s.port.bytePos = some k →
    u = { s with sckHigh := false } →
    (s.port.response = none ∨ s.port.bitCount ≠ some 0 → s.takeEdge .sckFall = .next u) ∧
    ∀ r, s.port.response = some r → s.port.bitCount = some 0 →
      (s.port.softArmed = true → k = r.resultPos + 1 → s.takeEdge .sckFall = exec (.softResetAction .resultByteEnd) u) ∧
      (s.port.softArmed = false ∨ k ≠ r.resultPos + 1 → r.stream.isSome = true →
        (k = r.copyPos → s.takeEdge .sckFall = .next { u with port := { s.port with phase := .streaming } }) ∧
        (k = r.copyPos + r.copy.length → r.copy ≠ [] → s.takeEdge .sckFall = exec .streamRecordCopy u) ∧
        (k ≠ r.copyPos → k ≠ r.copyPos + r.copy.length → s.takeEdge .sckFall = .next u)) ∧
      (s.port.softArmed = false ∨ k ≠ r.resultPos + 1 → r.stream = none → s.takeEdge .sckFall = .next u)) ∧
  (∀ x : Byte, byteEdges x = (List.range 8).flatMap fun k => [.sckRise (x.getMsbD k), .sckFall]) ∧
  (∀ (i : Instr) (bytes : List Byte) (s : State), encodeCommand i = some bytes → (∀ v, i = .saveProfile v → v = s.profileWp) →
    s.PortLaw → s.collecting = true → s.sckHigh = false → s.port.bitCount = some 0 → s.port.bytePos = some 0 →
    (∃ p : Port, s.takeEdges ((bytes.flatMap byteEdges).dropLast) = exec i { s with sckHigh := true, port := p } ∧
      { p with
        bitCount := s.port.bitCount, bytePos := s.port.bytePos, code := s.port.code, argsReceived := s.port.argsReceived,
        shift := s.port.shift } = s.port) ∧
    ∀ m, m + 1 < 16 * bytes.length → ∃ u, s.takeEdges ((bytes.flatMap byteEdges).take m) = .next u ∧
      u.port.phase = .collecting ∧
      { u with
        sckHigh := s.sckHigh,
        port := { u.port with
          bitCount := s.port.bitCount, bytePos := s.port.bytePos, code := s.port.code, argsReceived := s.port.argsReceived,
          shift := s.port.shift } } = s) ∧
  (∀ (code : Byte) (s : State), (∀ i : Instr, i.code ≠ some code) → s.PortLaw → s.collecting = true → s.sckHigh = false →
    s.port.bitCount = some 0 → s.port.bytePos = some 0 →
    s.takeEdges ((byteEdges code).dropLast) = exec (.unknownCommandCode code) { s with
      sckHigh := true, port := { s.port with bytePos := some 1, shift := code } })
end

