-- ==== Sys2Proof/Laws/State.lean ====
section
/-! SUPPORT. One lemma per field per update of the state, true by rfl, so that no proof unfolds a record update. -/

namespace Sys2Proof.Laws

open Sys2Proof.Machine

variable (s : State)

@[simp] theorem withHeat_pending (h : Heat) : (s.withHeat h).pending = s.pending := rfl
@[simp] theorem withHeat_trackTime (h : Heat) : (s.withHeat h).trackTime = s.trackTime := rfl
@[simp] theorem withHeat_inReset (h : Heat) : (s.withHeat h).inReset = s.inReset := rfl
@[simp] theorem withHeat_profileWp (h : Heat) : (s.withHeat h).profileWp = s.profileWp := rfl
@[simp] theorem withHeat_sckHigh (h : Heat) : (s.withHeat h).sckHigh = s.sckHigh := rfl
@[simp] theorem withHeat_edges (h : Heat) : (s.withHeat h).edges = s.edges := rfl
@[simp] theorem withHeat_port (h : Heat) : (s.withHeat h).port = s.port := rfl
@[simp] theorem withHeat_linkA (h : Heat) : (s.withHeat h).linkA = s.linkA := rfl
@[simp] theorem withHeat_linkB (h : Heat) : (s.withHeat h).linkB = s.linkB := rfl
@[simp] theorem withHeat_gun (h : Heat) : (s.withHeat h).gun = s.gun := rfl
@[simp] theorem withHeat_heat (h : Heat) : (s.withHeat h).heat = h := rfl
@[simp] theorem withHeat_lanes (h : Heat) : (s.withHeat h).lanes = s.lanes := rfl
@[simp] theorem withHeat_bibIndex (h : Heat) : (s.withHeat h).bibIndex = s.bibIndex := rfl
@[simp] theorem withHeat_report (h : Heat) : (s.withHeat h).report = s.report := rfl
@[simp] theorem withHeat_notices (h : Heat) : (s.withHeat h).notices = s.notices := rfl
@[simp] theorem withHeat_settings (h : Heat) : (s.withHeat h).settings = s.settings := rfl
@[simp] theorem withHeat_profile (h : Heat) : (s.withHeat h).profile = s.profile := rfl
@[simp] theorem withHeat_nvm (h : Heat) : (s.withHeat h).nvm = s.nvm := rfl
@[simp] theorem withHeat_freeCount (h : Heat) : (s.withHeat h).freeCount = s.freeCount := rfl

@[simp] theorem withGun_pending (g : Gun) : (s.withGun g).pending = s.pending := rfl
@[simp] theorem withGun_trackTime (g : Gun) : (s.withGun g).trackTime = s.trackTime := rfl
@[simp] theorem withGun_inReset (g : Gun) : (s.withGun g).inReset = s.inReset := rfl
@[simp] theorem withGun_profileWp (g : Gun) : (s.withGun g).profileWp = s.profileWp := rfl
@[simp] theorem withGun_sckHigh (g : Gun) : (s.withGun g).sckHigh = s.sckHigh := rfl
@[simp] theorem withGun_edges (g : Gun) : (s.withGun g).edges = s.edges := rfl
@[simp] theorem withGun_port (g : Gun) : (s.withGun g).port = s.port := rfl
@[simp] theorem withGun_linkA (g : Gun) : (s.withGun g).linkA = s.linkA := rfl
@[simp] theorem withGun_linkB (g : Gun) : (s.withGun g).linkB = s.linkB := rfl
@[simp] theorem withGun_gun (g : Gun) : (s.withGun g).gun = g := rfl
@[simp] theorem withGun_heat (g : Gun) : (s.withGun g).heat = s.heat := rfl
@[simp] theorem withGun_lanes (g : Gun) : (s.withGun g).lanes = s.lanes := rfl
@[simp] theorem withGun_bibIndex (g : Gun) : (s.withGun g).bibIndex = s.bibIndex := rfl
@[simp] theorem withGun_report (g : Gun) : (s.withGun g).report = s.report := rfl
@[simp] theorem withGun_notices (g : Gun) : (s.withGun g).notices = s.notices := rfl
@[simp] theorem withGun_settings (g : Gun) : (s.withGun g).settings = s.settings := rfl
@[simp] theorem withGun_profile (g : Gun) : (s.withGun g).profile = s.profile := rfl
@[simp] theorem withGun_nvm (g : Gun) : (s.withGun g).nvm = s.nvm := rfl
@[simp] theorem withGun_freeCount (g : Gun) : (s.withGun g).freeCount = s.freeCount := rfl

@[simp] theorem withNotices_pending (n : Notices) : (s.withNotices n).pending = s.pending := rfl
@[simp] theorem withNotices_trackTime (n : Notices) : (s.withNotices n).trackTime = s.trackTime := rfl
@[simp] theorem withNotices_inReset (n : Notices) : (s.withNotices n).inReset = s.inReset := rfl
@[simp] theorem withNotices_profileWp (n : Notices) : (s.withNotices n).profileWp = s.profileWp := rfl
@[simp] theorem withNotices_sckHigh (n : Notices) : (s.withNotices n).sckHigh = s.sckHigh := rfl
@[simp] theorem withNotices_edges (n : Notices) : (s.withNotices n).edges = s.edges := rfl
@[simp] theorem withNotices_port (n : Notices) : (s.withNotices n).port = s.port := rfl
@[simp] theorem withNotices_linkA (n : Notices) : (s.withNotices n).linkA = s.linkA := rfl
@[simp] theorem withNotices_linkB (n : Notices) : (s.withNotices n).linkB = s.linkB := rfl
@[simp] theorem withNotices_gun (n : Notices) : (s.withNotices n).gun = s.gun := rfl
@[simp] theorem withNotices_heat (n : Notices) : (s.withNotices n).heat = s.heat := rfl
@[simp] theorem withNotices_lanes (n : Notices) : (s.withNotices n).lanes = s.lanes := rfl
@[simp] theorem withNotices_bibIndex (n : Notices) : (s.withNotices n).bibIndex = s.bibIndex := rfl
@[simp] theorem withNotices_report (n : Notices) : (s.withNotices n).report = s.report := rfl
@[simp] theorem withNotices_notices (n : Notices) : (s.withNotices n).notices = n := rfl
@[simp] theorem withNotices_settings (n : Notices) : (s.withNotices n).settings = s.settings := rfl
@[simp] theorem withNotices_profile (n : Notices) : (s.withNotices n).profile = s.profile := rfl
@[simp] theorem withNotices_nvm (n : Notices) : (s.withNotices n).nvm = s.nvm := rfl
@[simp] theorem withNotices_freeCount (n : Notices) : (s.withNotices n).freeCount = s.freeCount := rfl

@[simp] theorem withPort_pending (p : Port) : (s.withPort p).pending = s.pending := rfl
@[simp] theorem withPort_trackTime (p : Port) : (s.withPort p).trackTime = s.trackTime := rfl
@[simp] theorem withPort_inReset (p : Port) : (s.withPort p).inReset = s.inReset := rfl
@[simp] theorem withPort_profileWp (p : Port) : (s.withPort p).profileWp = s.profileWp := rfl
@[simp] theorem withPort_sckHigh (p : Port) : (s.withPort p).sckHigh = s.sckHigh := rfl
@[simp] theorem withPort_edges (p : Port) : (s.withPort p).edges = s.edges := rfl
@[simp] theorem withPort_port (p : Port) : (s.withPort p).port = p := rfl
@[simp] theorem withPort_linkA (p : Port) : (s.withPort p).linkA = s.linkA := rfl
@[simp] theorem withPort_linkB (p : Port) : (s.withPort p).linkB = s.linkB := rfl
@[simp] theorem withPort_gun (p : Port) : (s.withPort p).gun = s.gun := rfl
@[simp] theorem withPort_heat (p : Port) : (s.withPort p).heat = s.heat := rfl
@[simp] theorem withPort_lanes (p : Port) : (s.withPort p).lanes = s.lanes := rfl
@[simp] theorem withPort_bibIndex (p : Port) : (s.withPort p).bibIndex = s.bibIndex := rfl
@[simp] theorem withPort_report (p : Port) : (s.withPort p).report = s.report := rfl
@[simp] theorem withPort_notices (p : Port) : (s.withPort p).notices = s.notices := rfl
@[simp] theorem withPort_settings (p : Port) : (s.withPort p).settings = s.settings := rfl
@[simp] theorem withPort_profile (p : Port) : (s.withPort p).profile = s.profile := rfl
@[simp] theorem withPort_nvm (p : Port) : (s.withPort p).nvm = s.nvm := rfl
@[simp] theorem withPort_freeCount (p : Port) : (s.withPort p).freeCount = s.freeCount := rfl

@[simp] theorem withReport_pending (r : Option Report) : (s.withReport r).pending = s.pending := rfl
@[simp] theorem withReport_trackTime (r : Option Report) : (s.withReport r).trackTime = s.trackTime := rfl
@[simp] theorem withReport_inReset (r : Option Report) : (s.withReport r).inReset = s.inReset := rfl
@[simp] theorem withReport_profileWp (r : Option Report) : (s.withReport r).profileWp = s.profileWp := rfl
@[simp] theorem withReport_sckHigh (r : Option Report) : (s.withReport r).sckHigh = s.sckHigh := rfl
@[simp] theorem withReport_edges (r : Option Report) : (s.withReport r).edges = s.edges := rfl
@[simp] theorem withReport_port (r : Option Report) : (s.withReport r).port = s.port := rfl
@[simp] theorem withReport_linkA (r : Option Report) : (s.withReport r).linkA = s.linkA := rfl
@[simp] theorem withReport_linkB (r : Option Report) : (s.withReport r).linkB = s.linkB := rfl
@[simp] theorem withReport_gun (r : Option Report) : (s.withReport r).gun = s.gun := rfl
@[simp] theorem withReport_heat (r : Option Report) : (s.withReport r).heat = s.heat := rfl
@[simp] theorem withReport_lanes (r : Option Report) : (s.withReport r).lanes = s.lanes := rfl
@[simp] theorem withReport_bibIndex (r : Option Report) : (s.withReport r).bibIndex = s.bibIndex := rfl
@[simp] theorem withReport_report (r : Option Report) : (s.withReport r).report = r := rfl
@[simp] theorem withReport_notices (r : Option Report) : (s.withReport r).notices = s.notices := rfl
@[simp] theorem withReport_settings (r : Option Report) : (s.withReport r).settings = s.settings := rfl
@[simp] theorem withReport_profile (r : Option Report) : (s.withReport r).profile = s.profile := rfl
@[simp] theorem withReport_nvm (r : Option Report) : (s.withReport r).nvm = s.nvm := rfl
@[simp] theorem withReport_freeCount (r : Option Report) : (s.withReport r).freeCount = s.freeCount := rfl

@[simp] theorem mapLanes_pending (f : LaneNo → Lane → Lane) : (s.mapLanes f).pending = s.pending := rfl
@[simp] theorem mapLanes_trackTime (f : LaneNo → Lane → Lane) : (s.mapLanes f).trackTime = s.trackTime := rfl
@[simp] theorem mapLanes_inReset (f : LaneNo → Lane → Lane) : (s.mapLanes f).inReset = s.inReset := rfl
@[simp] theorem mapLanes_profileWp (f : LaneNo → Lane → Lane) : (s.mapLanes f).profileWp = s.profileWp := rfl
@[simp] theorem mapLanes_sckHigh (f : LaneNo → Lane → Lane) : (s.mapLanes f).sckHigh = s.sckHigh := rfl
@[simp] theorem mapLanes_edges (f : LaneNo → Lane → Lane) : (s.mapLanes f).edges = s.edges := rfl
@[simp] theorem mapLanes_port (f : LaneNo → Lane → Lane) : (s.mapLanes f).port = s.port := rfl
@[simp] theorem mapLanes_linkA (f : LaneNo → Lane → Lane) : (s.mapLanes f).linkA = s.linkA := rfl
@[simp] theorem mapLanes_linkB (f : LaneNo → Lane → Lane) : (s.mapLanes f).linkB = s.linkB := rfl
@[simp] theorem mapLanes_gun (f : LaneNo → Lane → Lane) : (s.mapLanes f).gun = s.gun := rfl
@[simp] theorem mapLanes_heat (f : LaneNo → Lane → Lane) : (s.mapLanes f).heat = s.heat := rfl
theorem mapLanes_lanes (f : LaneNo → Lane → Lane) : (s.mapLanes f).lanes = Vector.ofFn fun i => f i s.lanes[i] := rfl
@[simp] theorem mapLanes_bibIndex (f : LaneNo → Lane → Lane) : (s.mapLanes f).bibIndex = s.bibIndex := rfl
@[simp] theorem mapLanes_report (f : LaneNo → Lane → Lane) : (s.mapLanes f).report = s.report := rfl
@[simp] theorem mapLanes_notices (f : LaneNo → Lane → Lane) : (s.mapLanes f).notices = s.notices := rfl
@[simp] theorem mapLanes_settings (f : LaneNo → Lane → Lane) : (s.mapLanes f).settings = s.settings := rfl
@[simp] theorem mapLanes_profile (f : LaneNo → Lane → Lane) : (s.mapLanes f).profile = s.profile := rfl
@[simp] theorem mapLanes_nvm (f : LaneNo → Lane → Lane) : (s.mapLanes f).nvm = s.nvm := rfl
@[simp] theorem mapLanes_freeCount (f : LaneNo → Lane → Lane) : (s.mapLanes f).freeCount = s.freeCount := rfl

@[simp] theorem changeLane_pending (i : LaneNo) (f : Lane → Lane) : (s.changeLane i f).pending = s.pending := rfl
@[simp] theorem changeLane_trackTime (i : LaneNo) (f : Lane → Lane) : (s.changeLane i f).trackTime = s.trackTime := rfl
@[simp] theorem changeLane_inReset (i : LaneNo) (f : Lane → Lane) : (s.changeLane i f).inReset = s.inReset := rfl
@[simp] theorem changeLane_profileWp (i : LaneNo) (f : Lane → Lane) : (s.changeLane i f).profileWp = s.profileWp := rfl
@[simp] theorem changeLane_sckHigh (i : LaneNo) (f : Lane → Lane) : (s.changeLane i f).sckHigh = s.sckHigh := rfl
@[simp] theorem changeLane_edges (i : LaneNo) (f : Lane → Lane) : (s.changeLane i f).edges = s.edges := rfl
@[simp] theorem changeLane_port (i : LaneNo) (f : Lane → Lane) : (s.changeLane i f).port = s.port := rfl
@[simp] theorem changeLane_linkA (i : LaneNo) (f : Lane → Lane) : (s.changeLane i f).linkA = s.linkA := rfl
@[simp] theorem changeLane_linkB (i : LaneNo) (f : Lane → Lane) : (s.changeLane i f).linkB = s.linkB := rfl
@[simp] theorem changeLane_gun (i : LaneNo) (f : Lane → Lane) : (s.changeLane i f).gun = s.gun := rfl
@[simp] theorem changeLane_heat (i : LaneNo) (f : Lane → Lane) : (s.changeLane i f).heat = s.heat := rfl
@[simp] theorem changeLane_bibIndex (i : LaneNo) (f : Lane → Lane) : (s.changeLane i f).bibIndex = s.bibIndex := rfl
@[simp] theorem changeLane_report (i : LaneNo) (f : Lane → Lane) : (s.changeLane i f).report = s.report := rfl
@[simp] theorem changeLane_notices (i : LaneNo) (f : Lane → Lane) : (s.changeLane i f).notices = s.notices := rfl
@[simp] theorem changeLane_settings (i : LaneNo) (f : Lane → Lane) : (s.changeLane i f).settings = s.settings := rfl
@[simp] theorem changeLane_profile (i : LaneNo) (f : Lane → Lane) : (s.changeLane i f).profile = s.profile := rfl
@[simp] theorem changeLane_nvm (i : LaneNo) (f : Lane → Lane) : (s.changeLane i f).nvm = s.nvm := rfl
@[simp] theorem changeLane_freeCount (i : LaneNo) (f : Lane → Lane) : (s.changeLane i f).freeCount = s.freeCount := rfl

@[simp] theorem withLink_pending (l : LinkId) (r : LinkRx) : (s.withLink l r).pending = s.pending := by cases l <;> rfl
@[simp] theorem withLink_trackTime (l : LinkId) (r : LinkRx) : (s.withLink l r).trackTime = s.trackTime := by cases l <;> rfl
@[simp] theorem withLink_inReset (l : LinkId) (r : LinkRx) : (s.withLink l r).inReset = s.inReset := by cases l <;> rfl
@[simp] theorem withLink_profileWp (l : LinkId) (r : LinkRx) : (s.withLink l r).profileWp = s.profileWp := by cases l <;> rfl
@[simp] theorem withLink_sckHigh (l : LinkId) (r : LinkRx) : (s.withLink l r).sckHigh = s.sckHigh := by cases l <;> rfl
@[simp] theorem withLink_edges (l : LinkId) (r : LinkRx) : (s.withLink l r).edges = s.edges := by cases l <;> rfl
@[simp] theorem withLink_port (l : LinkId) (r : LinkRx) : (s.withLink l r).port = s.port := by cases l <;> rfl
@[simp] theorem withLink_gun (l : LinkId) (r : LinkRx) : (s.withLink l r).gun = s.gun := by cases l <;> rfl
@[simp] theorem withLink_heat (l : LinkId) (r : LinkRx) : (s.withLink l r).heat = s.heat := by cases l <;> rfl
@[simp] theorem withLink_lanes (l : LinkId) (r : LinkRx) : (s.withLink l r).lanes = s.lanes := by cases l <;> rfl
@[simp] theorem withLink_bibIndex (l : LinkId) (r : LinkRx) : (s.withLink l r).bibIndex = s.bibIndex := by cases l <;> rfl
@[simp] theorem withLink_report (l : LinkId) (r : LinkRx) : (s.withLink l r).report = s.report := by cases l <;> rfl
@[simp] theorem withLink_notices (l : LinkId) (r : LinkRx) : (s.withLink l r).notices = s.notices := by cases l <;> rfl
@[simp] theorem withLink_settings (l : LinkId) (r : LinkRx) : (s.withLink l r).settings = s.settings := by cases l <;> rfl
@[simp] theorem withLink_profile (l : LinkId) (r : LinkRx) : (s.withLink l r).profile = s.profile := by cases l <;> rfl
@[simp] theorem withLink_nvm (l : LinkId) (r : LinkRx) : (s.withLink l r).nvm = s.nvm := by cases l <;> rfl
@[simp] theorem withLink_freeCount (l : LinkId) (r : LinkRx) : (s.withLink l r).freeCount = s.freeCount := by cases l <;> rfl

/-- A lane after a map over the lanes. -/
theorem mapLanes_lane (f : LaneNo → Lane → Lane) (i : LaneNo) : (s.mapLanes f).lanes[i] = f i s.lanes[i] := by
  simp [State.mapLanes]

/-- A lane after a map over the lanes, by the number of its place. -/
@[simp] theorem mapLanes_getElem (f : LaneNo → Lane → Lane) (i : Nat) (h : i < 10) :
    (s.mapLanes f).lanes[i] = f ⟨i, h⟩ s.lanes[i] := by
  simp [State.mapLanes]

/-- A changed lane, and every other lane. -/
theorem changeLane_lane (i j : LaneNo) (f : Lane → Lane) :
    (s.changeLane i f).lanes[j] = if j = i then f s.lanes[j] else s.lanes[j] := by
  simp [State.changeLane, State.mapLanes]

/-- A changed lane, and every other lane, by the number of its place. -/
@[simp] theorem changeLane_getElem (i : LaneNo) (j : Nat) (h : j < 10) (f : Lane → Lane) :
    (s.changeLane i f).lanes[j] = if (⟨j, h⟩ : LaneNo) = i then f s.lanes[j] else s.lanes[j] := by
  simp [State.changeLane]

/-- The link written, and the other link. -/
@[simp] theorem withLink_link (l m : LinkId) (r : LinkRx) : (s.withLink l r).link m = if m = l then r else s.link m := by
  cases l <;> cases m <;> rfl

/-- The receivers are read by name only. -/
theorem link_congr {s t : State} (ha : t.linkA = s.linkA) (hb : t.linkB = s.linkB) (l : LinkId) : t.link l = s.link l := by
  cases l <;> assumption

end Sys2Proof.Laws
end

