-- ==== Sys2Proof/Laws/Ops.lean ====
section
/-! SUPPORT. What each shared operation of Ops.lean leaves unchanged, and what it gives, said once. -/

namespace Sys2Proof.Laws

open Sys2Proof.Machine

/-- Every lane is one of the ten. -/
@[simp] theorem mem_allLanes (i : LaneNo) : i ∈ allLanes := by
  revert i; decide

/-- The ten lanes are in strictly ascending order. -/
theorem allLanes_sorted : allLanes.Pairwise (· < ·) := by decide

variable (s : State)

/-! ### Frames: a field that an operation does not name -/

@[simp] theorem raise_pending (x : NoticeSource) : (s.raise x).pending = s.pending := rfl
@[simp] theorem raise_trackTime (x : NoticeSource) : (s.raise x).trackTime = s.trackTime := rfl
@[simp] theorem raise_inReset (x : NoticeSource) : (s.raise x).inReset = s.inReset := rfl
@[simp] theorem raise_profileWp (x : NoticeSource) : (s.raise x).profileWp = s.profileWp := rfl
@[simp] theorem raise_sckHigh (x : NoticeSource) : (s.raise x).sckHigh = s.sckHigh := rfl
@[simp] theorem raise_edges (x : NoticeSource) : (s.raise x).edges = s.edges := rfl
@[simp] theorem raise_port (x : NoticeSource) : (s.raise x).port = s.port := rfl
@[simp] theorem raise_linkA (x : NoticeSource) : (s.raise x).linkA = s.linkA := rfl
@[simp] theorem raise_linkB (x : NoticeSource) : (s.raise x).linkB = s.linkB := rfl
@[simp] theorem raise_gun (x : NoticeSource) : (s.raise x).gun = s.gun := rfl
@[simp] theorem raise_heat (x : NoticeSource) : (s.raise x).heat = s.heat := rfl
@[simp] theorem raise_lanes (x : NoticeSource) : (s.raise x).lanes = s.lanes := rfl
@[simp] theorem raise_bibIndex (x : NoticeSource) : (s.raise x).bibIndex = s.bibIndex := rfl
@[simp] theorem raise_report (x : NoticeSource) : (s.raise x).report = s.report := rfl
@[simp] theorem raise_settings (x : NoticeSource) : (s.raise x).settings = s.settings := rfl
@[simp] theorem raise_profile (x : NoticeSource) : (s.raise x).profile = s.profile := rfl
@[simp] theorem raise_nvm (x : NoticeSource) : (s.raise x).nvm = s.nvm := rfl
@[simp] theorem raise_freeCount (x : NoticeSource) : (s.raise x).freeCount = s.freeCount := rfl

@[simp] theorem raiseIf_pending (b : Bool) (x : NoticeSource) : (s.raiseIf b x).pending = s.pending := by cases b <;> rfl
@[simp] theorem raiseIf_trackTime (b : Bool) (x : NoticeSource) : (s.raiseIf b x).trackTime = s.trackTime := by cases b <;> rfl
@[simp] theorem raiseIf_inReset (b : Bool) (x : NoticeSource) : (s.raiseIf b x).inReset = s.inReset := by cases b <;> rfl
@[simp] theorem raiseIf_profileWp (b : Bool) (x : NoticeSource) : (s.raiseIf b x).profileWp = s.profileWp := by cases b <;> rfl
@[simp] theorem raiseIf_sckHigh (b : Bool) (x : NoticeSource) : (s.raiseIf b x).sckHigh = s.sckHigh := by cases b <;> rfl
@[simp] theorem raiseIf_edges (b : Bool) (x : NoticeSource) : (s.raiseIf b x).edges = s.edges := by cases b <;> rfl
@[simp] theorem raiseIf_port (b : Bool) (x : NoticeSource) : (s.raiseIf b x).port = s.port := by cases b <;> rfl
@[simp] theorem raiseIf_linkA (b : Bool) (x : NoticeSource) : (s.raiseIf b x).linkA = s.linkA := by cases b <;> rfl
@[simp] theorem raiseIf_linkB (b : Bool) (x : NoticeSource) : (s.raiseIf b x).linkB = s.linkB := by cases b <;> rfl
@[simp] theorem raiseIf_gun (b : Bool) (x : NoticeSource) : (s.raiseIf b x).gun = s.gun := by cases b <;> rfl
@[simp] theorem raiseIf_heat (b : Bool) (x : NoticeSource) : (s.raiseIf b x).heat = s.heat := by cases b <;> rfl
@[simp] theorem raiseIf_lanes (b : Bool) (x : NoticeSource) : (s.raiseIf b x).lanes = s.lanes := by cases b <;> rfl
@[simp] theorem raiseIf_bibIndex (b : Bool) (x : NoticeSource) : (s.raiseIf b x).bibIndex = s.bibIndex := by cases b <;> rfl
@[simp] theorem raiseIf_report (b : Bool) (x : NoticeSource) : (s.raiseIf b x).report = s.report := by cases b <;> rfl
@[simp] theorem raiseIf_settings (b : Bool) (x : NoticeSource) : (s.raiseIf b x).settings = s.settings := by cases b <;> rfl
@[simp] theorem raiseIf_profile (b : Bool) (x : NoticeSource) : (s.raiseIf b x).profile = s.profile := by cases b <;> rfl
@[simp] theorem raiseIf_nvm (b : Bool) (x : NoticeSource) : (s.raiseIf b x).nvm = s.nvm := by cases b <;> rfl
@[simp] theorem raiseIf_freeCount (b : Bool) (x : NoticeSource) : (s.raiseIf b x).freeCount = s.freeCount := by cases b <;> rfl

@[simp] theorem clearEvent_pending (x : NoticeSource) : (s.clearEvent x).pending = s.pending := rfl
@[simp] theorem clearEvent_trackTime (x : NoticeSource) : (s.clearEvent x).trackTime = s.trackTime := rfl
@[simp] theorem clearEvent_inReset (x : NoticeSource) : (s.clearEvent x).inReset = s.inReset := rfl
@[simp] theorem clearEvent_profileWp (x : NoticeSource) : (s.clearEvent x).profileWp = s.profileWp := rfl
@[simp] theorem clearEvent_sckHigh (x : NoticeSource) : (s.clearEvent x).sckHigh = s.sckHigh := rfl
@[simp] theorem clearEvent_edges (x : NoticeSource) : (s.clearEvent x).edges = s.edges := rfl
@[simp] theorem clearEvent_port (x : NoticeSource) : (s.clearEvent x).port = s.port := rfl
@[simp] theorem clearEvent_linkA (x : NoticeSource) : (s.clearEvent x).linkA = s.linkA := rfl
@[simp] theorem clearEvent_linkB (x : NoticeSource) : (s.clearEvent x).linkB = s.linkB := rfl
@[simp] theorem clearEvent_gun (x : NoticeSource) : (s.clearEvent x).gun = s.gun := rfl
@[simp] theorem clearEvent_heat (x : NoticeSource) : (s.clearEvent x).heat = s.heat := rfl
@[simp] theorem clearEvent_lanes (x : NoticeSource) : (s.clearEvent x).lanes = s.lanes := rfl
@[simp] theorem clearEvent_bibIndex (x : NoticeSource) : (s.clearEvent x).bibIndex = s.bibIndex := rfl
@[simp] theorem clearEvent_report (x : NoticeSource) : (s.clearEvent x).report = s.report := rfl
@[simp] theorem clearEvent_settings (x : NoticeSource) : (s.clearEvent x).settings = s.settings := rfl
@[simp] theorem clearEvent_profile (x : NoticeSource) : (s.clearEvent x).profile = s.profile := rfl
@[simp] theorem clearEvent_nvm (x : NoticeSource) : (s.clearEvent x).nvm = s.nvm := rfl
@[simp] theorem clearEvent_freeCount (x : NoticeSource) : (s.clearEvent x).freeCount = s.freeCount := rfl

@[simp] theorem settlePermit_pending : (s.settlePermit).pending = s.pending := by unfold State.settlePermit; split <;> rfl
@[simp] theorem settlePermit_trackTime : (s.settlePermit).trackTime = s.trackTime := by unfold State.settlePermit; split <;> rfl
@[simp] theorem settlePermit_inReset : (s.settlePermit).inReset = s.inReset := by unfold State.settlePermit; split <;> rfl
@[simp] theorem settlePermit_profileWp : (s.settlePermit).profileWp = s.profileWp := by unfold State.settlePermit; split <;> rfl
@[simp] theorem settlePermit_sckHigh : (s.settlePermit).sckHigh = s.sckHigh := by unfold State.settlePermit; split <;> rfl
@[simp] theorem settlePermit_edges : (s.settlePermit).edges = s.edges := by unfold State.settlePermit; split <;> rfl
@[simp] theorem settlePermit_port : (s.settlePermit).port = s.port := by unfold State.settlePermit; split <;> rfl
@[simp] theorem settlePermit_linkA : (s.settlePermit).linkA = s.linkA := by unfold State.settlePermit; split <;> rfl
@[simp] theorem settlePermit_linkB : (s.settlePermit).linkB = s.linkB := by unfold State.settlePermit; split <;> rfl
@[simp] theorem settlePermit_heat : (s.settlePermit).heat = s.heat := by unfold State.settlePermit; split <;> rfl
@[simp] theorem settlePermit_lanes : (s.settlePermit).lanes = s.lanes := by unfold State.settlePermit; split <;> rfl
@[simp] theorem settlePermit_bibIndex : (s.settlePermit).bibIndex = s.bibIndex := by unfold State.settlePermit; split <;> rfl
@[simp] theorem settlePermit_report : (s.settlePermit).report = s.report := by unfold State.settlePermit; split <;> rfl
@[simp] theorem settlePermit_settings : (s.settlePermit).settings = s.settings := by unfold State.settlePermit; split <;> rfl
@[simp] theorem settlePermit_profile : (s.settlePermit).profile = s.profile := by unfold State.settlePermit; split <;> rfl
@[simp] theorem settlePermit_nvm : (s.settlePermit).nvm = s.nvm := by unfold State.settlePermit; split <;> rfl
@[simp] theorem settlePermit_freeCount : (s.settlePermit).freeCount = s.freeCount := by unfold State.settlePermit; split <;> rfl

@[simp] theorem issueRecall_pending (c : RecallCause) : (s.issueRecall c).pending = s.pending := by unfold State.issueRecall; split <;> simp
@[simp] theorem issueRecall_trackTime (c : RecallCause) : (s.issueRecall c).trackTime = s.trackTime := by unfold State.issueRecall; split <;> simp
@[simp] theorem issueRecall_inReset (c : RecallCause) : (s.issueRecall c).inReset = s.inReset := by unfold State.issueRecall; split <;> simp
@[simp] theorem issueRecall_profileWp (c : RecallCause) : (s.issueRecall c).profileWp = s.profileWp := by unfold State.issueRecall; split <;> simp
@[simp] theorem issueRecall_sckHigh (c : RecallCause) : (s.issueRecall c).sckHigh = s.sckHigh := by unfold State.issueRecall; split <;> simp
@[simp] theorem issueRecall_edges (c : RecallCause) : (s.issueRecall c).edges = s.edges := by unfold State.issueRecall; split <;> simp
@[simp] theorem issueRecall_port (c : RecallCause) : (s.issueRecall c).port = s.port := by unfold State.issueRecall; split <;> simp
@[simp] theorem issueRecall_linkA (c : RecallCause) : (s.issueRecall c).linkA = s.linkA := by unfold State.issueRecall; split <;> simp
@[simp] theorem issueRecall_linkB (c : RecallCause) : (s.issueRecall c).linkB = s.linkB := by unfold State.issueRecall; split <;> simp
@[simp] theorem issueRecall_gun (c : RecallCause) : (s.issueRecall c).gun = s.gun := by unfold State.issueRecall; split <;> simp
@[simp] theorem issueRecall_lanes (c : RecallCause) : (s.issueRecall c).lanes = s.lanes := by unfold State.issueRecall; split <;> simp
@[simp] theorem issueRecall_bibIndex (c : RecallCause) : (s.issueRecall c).bibIndex = s.bibIndex := by unfold State.issueRecall; split <;> simp
@[simp] theorem issueRecall_report (c : RecallCause) : (s.issueRecall c).report = s.report := by unfold State.issueRecall; split <;> simp
@[simp] theorem issueRecall_settings (c : RecallCause) : (s.issueRecall c).settings = s.settings := by unfold State.issueRecall; split <;> simp
@[simp] theorem issueRecall_profile (c : RecallCause) : (s.issueRecall c).profile = s.profile := by unfold State.issueRecall; split <;> simp
@[simp] theorem issueRecall_nvm (c : RecallCause) : (s.issueRecall c).nvm = s.nvm := by unfold State.issueRecall; split <;> simp
@[simp] theorem issueRecall_freeCount (c : RecallCause) : (s.issueRecall c).freeCount = s.freeCount := by unfold State.issueRecall; split <;> simp

@[simp] theorem issueRecallIf_pending (b : Bool) (c : RecallCause) : (s.issueRecallIf b c).pending = s.pending := by cases b <;> simp [State.issueRecallIf]
@[simp] theorem issueRecallIf_trackTime (b : Bool) (c : RecallCause) : (s.issueRecallIf b c).trackTime = s.trackTime := by cases b <;> simp [State.issueRecallIf]
@[simp] theorem issueRecallIf_inReset (b : Bool) (c : RecallCause) : (s.issueRecallIf b c).inReset = s.inReset := by cases b <;> simp [State.issueRecallIf]
@[simp] theorem issueRecallIf_profileWp (b : Bool) (c : RecallCause) : (s.issueRecallIf b c).profileWp = s.profileWp := by cases b <;> simp [State.issueRecallIf]
@[simp] theorem issueRecallIf_sckHigh (b : Bool) (c : RecallCause) : (s.issueRecallIf b c).sckHigh = s.sckHigh := by cases b <;> simp [State.issueRecallIf]
@[simp] theorem issueRecallIf_edges (b : Bool) (c : RecallCause) : (s.issueRecallIf b c).edges = s.edges := by cases b <;> simp [State.issueRecallIf]
@[simp] theorem issueRecallIf_port (b : Bool) (c : RecallCause) : (s.issueRecallIf b c).port = s.port := by cases b <;> simp [State.issueRecallIf]
@[simp] theorem issueRecallIf_linkA (b : Bool) (c : RecallCause) : (s.issueRecallIf b c).linkA = s.linkA := by cases b <;> simp [State.issueRecallIf]
@[simp] theorem issueRecallIf_linkB (b : Bool) (c : RecallCause) : (s.issueRecallIf b c).linkB = s.linkB := by cases b <;> simp [State.issueRecallIf]
@[simp] theorem issueRecallIf_gun (b : Bool) (c : RecallCause) : (s.issueRecallIf b c).gun = s.gun := by cases b <;> simp [State.issueRecallIf]
@[simp] theorem issueRecallIf_lanes (b : Bool) (c : RecallCause) : (s.issueRecallIf b c).lanes = s.lanes := by cases b <;> simp [State.issueRecallIf]
@[simp] theorem issueRecallIf_bibIndex (b : Bool) (c : RecallCause) : (s.issueRecallIf b c).bibIndex = s.bibIndex := by cases b <;> simp [State.issueRecallIf]
@[simp] theorem issueRecallIf_report (b : Bool) (c : RecallCause) : (s.issueRecallIf b c).report = s.report := by cases b <;> simp [State.issueRecallIf]
@[simp] theorem issueRecallIf_settings (b : Bool) (c : RecallCause) : (s.issueRecallIf b c).settings = s.settings := by cases b <;> simp [State.issueRecallIf]
@[simp] theorem issueRecallIf_profile (b : Bool) (c : RecallCause) : (s.issueRecallIf b c).profile = s.profile := by cases b <;> simp [State.issueRecallIf]
@[simp] theorem issueRecallIf_nvm (b : Bool) (c : RecallCause) : (s.issueRecallIf b c).nvm = s.nvm := by cases b <;> simp [State.issueRecallIf]
@[simp] theorem issueRecallIf_freeCount (b : Bool) (c : RecallCause) : (s.issueRecallIf b c).freeCount = s.freeCount := by cases b <;> simp [State.issueRecallIf]

@[simp] theorem lanesAfter_pending (f : LaneNo → Lane → Lane × Option LaneReport) : (s.lanesAfter f).pending = s.pending := rfl
@[simp] theorem lanesAfter_trackTime (f : LaneNo → Lane → Lane × Option LaneReport) : (s.lanesAfter f).trackTime = s.trackTime := rfl
@[simp] theorem lanesAfter_inReset (f : LaneNo → Lane → Lane × Option LaneReport) : (s.lanesAfter f).inReset = s.inReset := rfl
@[simp] theorem lanesAfter_profileWp (f : LaneNo → Lane → Lane × Option LaneReport) : (s.lanesAfter f).profileWp = s.profileWp := rfl
@[simp] theorem lanesAfter_sckHigh (f : LaneNo → Lane → Lane × Option LaneReport) : (s.lanesAfter f).sckHigh = s.sckHigh := rfl
@[simp] theorem lanesAfter_edges (f : LaneNo → Lane → Lane × Option LaneReport) : (s.lanesAfter f).edges = s.edges := rfl
@[simp] theorem lanesAfter_port (f : LaneNo → Lane → Lane × Option LaneReport) : (s.lanesAfter f).port = s.port := rfl
@[simp] theorem lanesAfter_linkA (f : LaneNo → Lane → Lane × Option LaneReport) : (s.lanesAfter f).linkA = s.linkA := rfl
@[simp] theorem lanesAfter_linkB (f : LaneNo → Lane → Lane × Option LaneReport) : (s.lanesAfter f).linkB = s.linkB := rfl
@[simp] theorem lanesAfter_gun (f : LaneNo → Lane → Lane × Option LaneReport) : (s.lanesAfter f).gun = s.gun := rfl
@[simp] theorem lanesAfter_heat (f : LaneNo → Lane → Lane × Option LaneReport) : (s.lanesAfter f).heat = s.heat := rfl
@[simp] theorem lanesAfter_bibIndex (f : LaneNo → Lane → Lane × Option LaneReport) : (s.lanesAfter f).bibIndex = s.bibIndex := rfl
@[simp] theorem lanesAfter_report (f : LaneNo → Lane → Lane × Option LaneReport) : (s.lanesAfter f).report = s.report := rfl
@[simp] theorem lanesAfter_notices (f : LaneNo → Lane → Lane × Option LaneReport) : (s.lanesAfter f).notices = s.notices := rfl
@[simp] theorem lanesAfter_settings (f : LaneNo → Lane → Lane × Option LaneReport) : (s.lanesAfter f).settings = s.settings := rfl
@[simp] theorem lanesAfter_profile (f : LaneNo → Lane → Lane × Option LaneReport) : (s.lanesAfter f).profile = s.profile := rfl
@[simp] theorem lanesAfter_nvm (f : LaneNo → Lane → Lane × Option LaneReport) : (s.lanesAfter f).nvm = s.nvm := rfl
@[simp] theorem lanesAfter_freeCount (f : LaneNo → Lane → Lane × Option LaneReport) : (s.lanesAfter f).freeCount = s.freeCount := rfl

@[simp] theorem takeReports_pending (f : LaneNo → Lane → Lane × Option LaneReport) : (s.takeReports f).pending = s.pending := by simp [State.takeReports]
@[simp] theorem takeReports_trackTime (f : LaneNo → Lane → Lane × Option LaneReport) : (s.takeReports f).trackTime = s.trackTime := by simp [State.takeReports]
@[simp] theorem takeReports_inReset (f : LaneNo → Lane → Lane × Option LaneReport) : (s.takeReports f).inReset = s.inReset := by simp [State.takeReports]
@[simp] theorem takeReports_profileWp (f : LaneNo → Lane → Lane × Option LaneReport) : (s.takeReports f).profileWp = s.profileWp := by simp [State.takeReports]
@[simp] theorem takeReports_sckHigh (f : LaneNo → Lane → Lane × Option LaneReport) : (s.takeReports f).sckHigh = s.sckHigh := by simp [State.takeReports]
@[simp] theorem takeReports_edges (f : LaneNo → Lane → Lane × Option LaneReport) : (s.takeReports f).edges = s.edges := by simp [State.takeReports]
@[simp] theorem takeReports_port (f : LaneNo → Lane → Lane × Option LaneReport) : (s.takeReports f).port = s.port := by simp [State.takeReports]
@[simp] theorem takeReports_linkA (f : LaneNo → Lane → Lane × Option LaneReport) : (s.takeReports f).linkA = s.linkA := by simp [State.takeReports]
@[simp] theorem takeReports_linkB (f : LaneNo → Lane → Lane × Option LaneReport) : (s.takeReports f).linkB = s.linkB := by simp [State.takeReports]
@[simp] theorem takeReports_gun (f : LaneNo → Lane → Lane × Option LaneReport) : (s.takeReports f).gun = s.gun := by simp [State.takeReports]
@[simp] theorem takeReports_bibIndex (f : LaneNo → Lane → Lane × Option LaneReport) : (s.takeReports f).bibIndex = s.bibIndex := by simp [State.takeReports]
@[simp] theorem takeReports_report (f : LaneNo → Lane → Lane × Option LaneReport) : (s.takeReports f).report = s.report := by simp [State.takeReports]
@[simp] theorem takeReports_settings (f : LaneNo → Lane → Lane × Option LaneReport) : (s.takeReports f).settings = s.settings := by simp [State.takeReports]
@[simp] theorem takeReports_profile (f : LaneNo → Lane → Lane × Option LaneReport) : (s.takeReports f).profile = s.profile := by simp [State.takeReports]
@[simp] theorem takeReports_nvm (f : LaneNo → Lane → Lane × Option LaneReport) : (s.takeReports f).nvm = s.nvm := by simp [State.takeReports]
@[simp] theorem takeReports_freeCount (f : LaneNo → Lane → Lane × Option LaneReport) : (s.takeReports f).freeCount = s.freeCount := by simp [State.takeReports]

@[simp] theorem changeSettings_pending (c : Settings) : (s.changeSettings c).pending = s.pending := rfl
@[simp] theorem changeSettings_trackTime (c : Settings) : (s.changeSettings c).trackTime = s.trackTime := rfl
@[simp] theorem changeSettings_inReset (c : Settings) : (s.changeSettings c).inReset = s.inReset := rfl
@[simp] theorem changeSettings_profileWp (c : Settings) : (s.changeSettings c).profileWp = s.profileWp := rfl
@[simp] theorem changeSettings_sckHigh (c : Settings) : (s.changeSettings c).sckHigh = s.sckHigh := rfl
@[simp] theorem changeSettings_edges (c : Settings) : (s.changeSettings c).edges = s.edges := rfl
@[simp] theorem changeSettings_port (c : Settings) : (s.changeSettings c).port = s.port := rfl
@[simp] theorem changeSettings_gun (c : Settings) : (s.changeSettings c).gun = s.gun := rfl
@[simp] theorem changeSettings_heat (c : Settings) : (s.changeSettings c).heat = s.heat := rfl
@[simp] theorem changeSettings_bibIndex (c : Settings) : (s.changeSettings c).bibIndex = s.bibIndex := rfl
@[simp] theorem changeSettings_report (c : Settings) : (s.changeSettings c).report = s.report := rfl
@[simp] theorem changeSettings_notices (c : Settings) : (s.changeSettings c).notices = s.notices := rfl
@[simp] theorem changeSettings_profile (c : Settings) : (s.changeSettings c).profile = s.profile := rfl
@[simp] theorem changeSettings_nvm (c : Settings) : (s.changeSettings c).nvm = s.nvm := rfl
@[simp] theorem changeSettings_freeCount (c : Settings) : (s.changeSettings c).freeCount = s.freeCount := rfl

@[simp] theorem loadProfile_pending : (s.loadProfile).pending = s.pending := by simp [State.loadProfile]
@[simp] theorem loadProfile_trackTime : (s.loadProfile).trackTime = s.trackTime := by simp [State.loadProfile]
@[simp] theorem loadProfile_inReset : (s.loadProfile).inReset = s.inReset := by simp [State.loadProfile]
@[simp] theorem loadProfile_profileWp : (s.loadProfile).profileWp = s.profileWp := by simp [State.loadProfile]
@[simp] theorem loadProfile_sckHigh : (s.loadProfile).sckHigh = s.sckHigh := by simp [State.loadProfile]
@[simp] theorem loadProfile_edges : (s.loadProfile).edges = s.edges := by simp [State.loadProfile]
@[simp] theorem loadProfile_port : (s.loadProfile).port = s.port := by simp [State.loadProfile]
@[simp] theorem loadProfile_gun : (s.loadProfile).gun = s.gun := by simp [State.loadProfile]
@[simp] theorem loadProfile_heat : (s.loadProfile).heat = s.heat := by simp [State.loadProfile]
@[simp] theorem loadProfile_bibIndex : (s.loadProfile).bibIndex = s.bibIndex := by simp [State.loadProfile]
@[simp] theorem loadProfile_report : (s.loadProfile).report = s.report := by simp [State.loadProfile]
@[simp] theorem loadProfile_nvm : (s.loadProfile).nvm = s.nvm := by simp [State.loadProfile]
@[simp] theorem loadProfile_freeCount : (s.loadProfile).freeCount = s.freeCount := by simp [State.loadProfile]

@[simp] theorem amendReport_pending : (s.amendReport).pending = s.pending := rfl
@[simp] theorem amendReport_trackTime : (s.amendReport).trackTime = s.trackTime := rfl
@[simp] theorem amendReport_inReset : (s.amendReport).inReset = s.inReset := rfl
@[simp] theorem amendReport_profileWp : (s.amendReport).profileWp = s.profileWp := rfl
@[simp] theorem amendReport_sckHigh : (s.amendReport).sckHigh = s.sckHigh := rfl
@[simp] theorem amendReport_edges : (s.amendReport).edges = s.edges := rfl
@[simp] theorem amendReport_port : (s.amendReport).port = s.port := rfl
@[simp] theorem amendReport_linkA : (s.amendReport).linkA = s.linkA := rfl
@[simp] theorem amendReport_linkB : (s.amendReport).linkB = s.linkB := rfl
@[simp] theorem amendReport_gun : (s.amendReport).gun = s.gun := rfl
@[simp] theorem amendReport_heat : (s.amendReport).heat = s.heat := rfl
@[simp] theorem amendReport_lanes : (s.amendReport).lanes = s.lanes := rfl
@[simp] theorem amendReport_bibIndex : (s.amendReport).bibIndex = s.bibIndex := rfl
@[simp] theorem amendReport_notices : (s.amendReport).notices = s.notices := rfl
@[simp] theorem amendReport_settings : (s.amendReport).settings = s.settings := rfl
@[simp] theorem amendReport_profile : (s.amendReport).profile = s.profile := rfl
@[simp] theorem amendReport_nvm : (s.amendReport).nvm = s.nvm := rfl
@[simp] theorem amendReport_freeCount : (s.amendReport).freeCount = s.freeCount := rfl

@[simp] theorem starterRecall_pending : (s.starterRecall).pending = s.pending := by unfold State.starterRecall; split <;> simp
@[simp] theorem starterRecall_trackTime : (s.starterRecall).trackTime = s.trackTime := by unfold State.starterRecall; split <;> simp
@[simp] theorem starterRecall_inReset : (s.starterRecall).inReset = s.inReset := by unfold State.starterRecall; split <;> simp
@[simp] theorem starterRecall_profileWp : (s.starterRecall).profileWp = s.profileWp := by unfold State.starterRecall; split <;> simp
@[simp] theorem starterRecall_sckHigh : (s.starterRecall).sckHigh = s.sckHigh := by unfold State.starterRecall; split <;> simp
@[simp] theorem starterRecall_edges : (s.starterRecall).edges = s.edges := by unfold State.starterRecall; split <;> simp
@[simp] theorem starterRecall_port : (s.starterRecall).port = s.port := by unfold State.starterRecall; split <;> simp
@[simp] theorem starterRecall_linkA : (s.starterRecall).linkA = s.linkA := by unfold State.starterRecall; split <;> simp
@[simp] theorem starterRecall_linkB : (s.starterRecall).linkB = s.linkB := by unfold State.starterRecall; split <;> simp
@[simp] theorem starterRecall_gun : (s.starterRecall).gun = s.gun := by unfold State.starterRecall; split <;> simp
@[simp] theorem starterRecall_lanes : (s.starterRecall).lanes = s.lanes := by unfold State.starterRecall; split <;> simp
@[simp] theorem starterRecall_bibIndex : (s.starterRecall).bibIndex = s.bibIndex := by unfold State.starterRecall; split <;> simp
@[simp] theorem starterRecall_settings : (s.starterRecall).settings = s.settings := by unfold State.starterRecall; split <;> simp
@[simp] theorem starterRecall_profile : (s.starterRecall).profile = s.profile := by unfold State.starterRecall; split <;> simp
@[simp] theorem starterRecall_nvm : (s.starterRecall).nvm = s.nvm := by unfold State.starterRecall; split <;> simp
@[simp] theorem starterRecall_freeCount : (s.starterRecall).freeCount = s.freeCount := by unfold State.starterRecall; split <;> simp

/-! ### What the notice operations change -/

/-- A raise sets one flag and keeps the others (R164). -/
@[simp] theorem raise_events (x : NoticeSource) (k : Nat) (h : k < 14) :
    (s.raise x).notices.events[k] = (s.notices.events[k] || (⟨k, h⟩ : Fin 14) == x.index) := by
  simp [State.raise]

@[simp] theorem raise_levels (x : NoticeSource) : (s.raise x).notices.levels = s.notices.levels := rfl
@[simp] theorem raise_ceiling (x : NoticeSource) : (s.raise x).notices.ceiling = s.notices.ceiling := rfl

@[simp] theorem raiseIf_true (x : NoticeSource) : s.raiseIf true x = s.raise x := rfl
@[simp] theorem raiseIf_false (x : NoticeSource) : s.raiseIf false x = s := rfl

/-- A clear takes one flag away and keeps the others (R169). -/
@[simp] theorem clearEvent_events (x : NoticeSource) (k : Nat) (h : k < 14) :
    (s.clearEvent x).notices.events[k] = (s.notices.events[k] && (⟨k, h⟩ : Fin 14) != x.index) := by
  simp [State.clearEvent]

@[simp] theorem clearEvent_levels (x : NoticeSource) : (s.clearEvent x).notices.levels = s.notices.levels := rfl
@[simp] theorem clearEvent_ceiling (x : NoticeSource) : (s.clearEvent x).notices.ceiling = s.notices.ceiling := rfl

/-! ### What the permit reads and changes -/

/-- The permit's conditions read the heat state, the lanes, the settings and the alignment of the links (R82). -/
theorem permitConditions_congr {s t : State} (hh : t.heat.state = s.heat.state) (hl : t.lanes = s.lanes)
    (hc : t.settings = s.settings) (ha : t.linkA.align = s.linkA.align) (hb : t.linkB.align = s.linkB.align) :
    t.permitConditions = s.permitConditions := by
  simp [State.permitConditions, State.anyEligible, State.linkReady, State.link, hh, hl, hc, ha, hb]

/-- Out of SET the conditions do not hold (R82). -/
theorem permitConditions_outside {s : State} (h : s.heat.state ≠ .set) : s.permitConditions = false := by
  simp [State.permitConditions, h]

/-- Settling the permit makes PERMIT_OUT what the conditions give (R83). -/
@[simp] theorem settlePermit_gun : s.settlePermit.gun = { s.gun with permitOut := s.permitConditions } := by
  unfold State.settlePermit
  split
  · next h => rw [h]
  · rfl

@[simp] theorem settlePermit_permitConditions : s.settlePermit.permitConditions = s.permitConditions :=
  permitConditions_congr (by simp) (by simp) (by simp) (by simp) (by simp)

/-- Settling the permit raises PERMIT_CHANGE exactly when the level changes (R83). -/
theorem settlePermit_notices :
    s.settlePermit.notices = (s.raiseIf (s.permitConditions != s.gun.permitOut) .permitChange).notices := by
  unfold State.settlePermit
  split
  · next h => simp [h]
  · next h =>
    have hb : (s.permitConditions != s.gun.permitOut) = true := by simp [h]
    rw [hb]
    rfl

/-! ### What the issue of a recall changes -/

@[simp] theorem issueRecall_state (c : RecallCause) : (s.issueRecall c).heat.state = s.heat.state := by
  unfold State.issueRecall; split <;> simp
@[simp] theorem issueRecall_attempt (c : RecallCause) : (s.issueRecall c).heat.attempt = s.heat.attempt := by
  unfold State.issueRecall; split <;> simp
@[simp] theorem issueRecall_id (c : RecallCause) : (s.issueRecall c).heat.id = s.heat.id := by
  unfold State.issueRecall; split <;> simp
@[simp] theorem issueRecall_gunStamp (c : RecallCause) : (s.issueRecall c).heat.gunStamp = s.heat.gunStamp := by
  unfold State.issueRecall; split <;> simp
@[simp] theorem issueRecall_closeTime (c : RecallCause) : (s.issueRecall c).heat.closeTime = s.heat.closeTime := by
  unfold State.issueRecall; split <;> simp
@[simp] theorem issueRecall_deadlineTime (c : RecallCause) : (s.issueRecall c).heat.deadlineTime = s.heat.deadlineTime := by
  unfold State.issueRecall; split <;> simp
@[simp] theorem issueRecall_warning (c : RecallCause) : (s.issueRecall c).heat.warning = s.heat.warning := by
  unfold State.issueRecall; split <;> simp

/-- The first recall of an attempt is recorded, and a later one changes nothing (R39). -/
@[simp] theorem issueRecall_issued (c : RecallCause) :
    (s.issueRecall c).heat.issued = s.heat.issued.or (some ⟨c, s.trackTime⟩) := by
  unfold State.issueRecall; split <;> simp_all

/-- The pulse is armed by the first recall of an attempt (R39, R41). -/
@[simp] theorem issueRecall_pulseEnd (c : RecallCause) :
    (s.issueRecall c).heat.pulseEnd =
      if s.heat.issued.isSome then s.heat.pulseEnd else some (stampAdd s.trackTime s.settings.recallPulse) := by
  unfold State.issueRecall; split <;> simp_all

@[simp] theorem issueRecallIf_true (c : RecallCause) : s.issueRecallIf true c = s.issueRecall c := rfl
@[simp] theorem issueRecallIf_false (c : RecallCause) : s.issueRecallIf false c = s := rfl

@[simp] theorem issueRecallIf_state (b : Bool) (c : RecallCause) : (s.issueRecallIf b c).heat.state = s.heat.state := by
  cases b <;> simp
@[simp] theorem issueRecallIf_attempt (b : Bool) (c : RecallCause) : (s.issueRecallIf b c).heat.attempt = s.heat.attempt := by
  cases b <;> simp
@[simp] theorem issueRecallIf_id (b : Bool) (c : RecallCause) : (s.issueRecallIf b c).heat.id = s.heat.id := by
  cases b <;> simp
@[simp] theorem issueRecallIf_gunStamp (b : Bool) (c : RecallCause) :
    (s.issueRecallIf b c).heat.gunStamp = s.heat.gunStamp := by
  cases b <;> simp
@[simp] theorem issueRecallIf_closeTime (b : Bool) (c : RecallCause) :
    (s.issueRecallIf b c).heat.closeTime = s.heat.closeTime := by
  cases b <;> simp
@[simp] theorem issueRecallIf_deadlineTime (b : Bool) (c : RecallCause) :
    (s.issueRecallIf b c).heat.deadlineTime = s.heat.deadlineTime := by
  cases b <;> simp
@[simp] theorem issueRecallIf_warning (b : Bool) (c : RecallCause) :
    (s.issueRecallIf b c).heat.warning = s.heat.warning := by
  cases b <;> simp
@[simp] theorem issueRecallIf_issued (b : Bool) (c : RecallCause) :
    (s.issueRecallIf b c).heat.issued = if b then s.heat.issued.or (some ⟨c, s.trackTime⟩) else s.heat.issued := by
  cases b <;> simp
@[simp] theorem issueRecallIf_pulseEnd (b : Bool) (c : RecallCause) :
    (s.issueRecallIf b c).heat.pulseEnd =
      if b = true ∧ s.heat.issued = none then some (stampAdd s.trackTime s.settings.recallPulse) else s.heat.pulseEnd := by
  cases b <;> simp
  cases s.heat.issued <;> simp

/-! ### What the lanes' reports change -/

/-- A lane after a change that reports. -/
@[simp] theorem lanesAfter_getElem (f : LaneNo → Lane → Lane × Option LaneReport) (i : Nat) (h : i < 10) :
    (s.lanesAfter f).lanes[i] = (f ⟨i, h⟩ s.lanes[i]).1 := by
  simp [State.lanesAfter]

/-- The reports change no lane: a lane is as its own change left it. -/
@[simp] theorem takeReports_lanes (f : LaneNo → Lane → Lane × Option LaneReport) :
    (s.takeReports f).lanes = (s.lanesAfter f).lanes := by
  simp [State.takeReports]

@[simp] theorem takeReports_state (f : LaneNo → Lane → Lane × Option LaneReport) :
    (s.takeReports f).heat.state = s.heat.state := by
  simp [State.takeReports]
@[simp] theorem takeReports_attempt (f : LaneNo → Lane → Lane × Option LaneReport) :
    (s.takeReports f).heat.attempt = s.heat.attempt := by
  simp [State.takeReports]
@[simp] theorem takeReports_id (f : LaneNo → Lane → Lane × Option LaneReport) : (s.takeReports f).heat.id = s.heat.id := by
  simp [State.takeReports]
@[simp] theorem takeReports_gunStamp (f : LaneNo → Lane → Lane × Option LaneReport) :
    (s.takeReports f).heat.gunStamp = s.heat.gunStamp := by
  simp [State.takeReports]
@[simp] theorem takeReports_closeTime (f : LaneNo → Lane → Lane × Option LaneReport) :
    (s.takeReports f).heat.closeTime = s.heat.closeTime := by
  simp [State.takeReports]
@[simp] theorem takeReports_deadlineTime (f : LaneNo → Lane → Lane × Option LaneReport) :
    (s.takeReports f).heat.deadlineTime = s.heat.deadlineTime := by
  simp [State.takeReports]
@[simp] theorem takeReports_warning (f : LaneNo → Lane → Lane × Option LaneReport) :
    (s.takeReports f).heat.warning = s.heat.warning := by
  simp [State.takeReports]

/-- The recall that lanes' reports issue: none when the attempt has one; a false onset's before an unsure lane's (R40). -/
@[simp] theorem takeReports_issued (f : LaneNo → Lane → Lane × Option LaneReport) :
    (s.takeReports f).heat.issued =
      s.heat.issued.or
        (if s.reported f .falseOnset then some ⟨.falseStart, s.trackTime⟩
        else if s.reported f .unsureLane && s.settings.unsureRecall then some ⟨.equipment, s.trackTime⟩
        else none) := by
  simp only [State.takeReports, issueRecallIf_issued, raiseIf_heat, lanesAfter_heat, issueRecallIf_trackTime,
    raiseIf_trackTime, lanesAfter_trackTime]
  cases s.heat.issued <;> cases s.reported f .falseOnset <;> cases (s.reported f .unsureLane && s.settings.unsureRecall) <;>
    simp

/-- The pulse that lanes' reports arm (R39, R41). -/
@[simp] theorem takeReports_pulseEnd (f : LaneNo → Lane → Lane × Option LaneReport) :
    (s.takeReports f).heat.pulseEnd =
      if s.heat.issued = none ∧
          (s.reported f .falseOnset = true ∨ (s.reported f .unsureLane && s.settings.unsureRecall) = true) then
        some (stampAdd s.trackTime s.settings.recallPulse)
      else s.heat.pulseEnd := by
  simp only [State.takeReports, issueRecallIf_issued, issueRecallIf_pulseEnd, raiseIf_heat, lanesAfter_heat,
    issueRecallIf_trackTime, raiseIf_trackTime, lanesAfter_trackTime, issueRecallIf_settings, raiseIf_settings,
    lanesAfter_settings]
  cases s.heat.issued <;> cases s.reported f .falseOnset <;> cases (s.reported f .unsureLane && s.settings.unsureRecall) <;>
    simp

/-- A report is made exactly when some lane makes it. -/
theorem reported_iff (f : LaneNo → Lane → Lane × Option LaneReport) (r : LaneReport) :
    s.reported f r = true ↔ ∃ i : LaneNo, (f i s.lanes[i]).2 = some r := by
  simp only [State.reported, List.any_eq_true, beq_iff_eq]
  exact ⟨fun ⟨i, _, h⟩ => ⟨i, h⟩, fun ⟨i, h⟩ => ⟨i, mem_allLanes i, h⟩⟩

/-! ### What a change of settings and a profile load change -/

@[simp] theorem changeSettings_settings (c : Settings) : (s.changeSettings c).settings = c := rfl

@[simp] theorem changeSettings_link (c : Settings) (l : LinkId) :
    (s.changeSettings c).link l = (s.link l).settingsChange s.settings c l := by
  cases l <;> rfl

@[simp] theorem changeSettings_linkA (c : Settings) : (s.changeSettings c).linkA = s.linkA.settingsChange s.settings c .a := rfl
@[simp] theorem changeSettings_linkB (c : Settings) : (s.changeSettings c).linkB = s.linkB.settingsChange s.settings c .b := rfl

@[simp] theorem changeSettings_getElem (c : Settings) (i : Nat) (h : i < 10) :
    (s.changeSettings c).lanes[i] = s.lanes[i].settingsChange s.settings c ⟨i, h⟩ := by
  simp [State.changeSettings]

@[simp] theorem loadProfile_settings : s.loadProfile.settings = s.loadedSettings := by
  simp [State.loadProfile]
@[simp] theorem loadProfile_profile : s.loadProfile.profile = s.loadedProfile := by
  simp [State.loadProfile]
@[simp] theorem loadProfile_linkA : s.loadProfile.linkA = s.linkA.settingsChange s.settings s.loadedSettings .a := by
  simp [State.loadProfile]
@[simp] theorem loadProfile_linkB : s.loadProfile.linkB = s.linkB.settingsChange s.settings s.loadedSettings .b := by
  simp [State.loadProfile]
@[simp] theorem loadProfile_link (l : LinkId) :
    s.loadProfile.link l = (s.link l).settingsChange s.settings s.loadedSettings l := by
  cases l <;> simp [State.link]
@[simp] theorem loadProfile_getElem (i : Nat) (h : i < 10) :
    s.loadProfile.lanes[i] = s.lanes[i].settingsChange s.settings s.loadedSettings ⟨i, h⟩ := by
  simp [State.loadProfile]

/-- A change of settings changes nothing of a lane but its last fresh drive force (R91). -/
theorem lane_settingsChange (old new : Settings) (i : LaneNo) (l : Lane) :
    l.settingsChange old new i = { l with lastForce := (l.settingsChange old new i).lastForce } ∧
      ((l.settingsChange old new i).lastForce = l.lastForce ∨ (l.settingsChange old new i).lastForce = none) := by
  unfold Lane.settingsChange
  split <;> simp

@[simp] theorem lane_settingsChange_entry (old new : Settings) (i : LaneNo) (l : Lane) :
    (l.settingsChange old new i).entry = l.entry := by unfold Lane.settingsChange; split <;> rfl
@[simp] theorem lane_settingsChange_phase (old new : Settings) (i : LaneNo) (l : Lane) :
    (l.settingsChange old new i).phase = l.phase := by unfold Lane.settingsChange; split <;> rfl
@[simp] theorem lane_settingsChange_baseline (old new : Settings) (i : LaneNo) (l : Lane) :
    (l.settingsChange old new i).baseline = l.baseline := by unfold Lane.settingsChange; split <;> rfl
@[simp] theorem lane_settingsChange_onset (old new : Settings) (i : LaneNo) (l : Lane) :
    (l.settingsChange old new i).onset = l.onset := by unfold Lane.settingsChange; split <;> rfl
@[simp] theorem lane_settingsChange_rt (old new : Settings) (i : LaneNo) (l : Lane) :
    (l.settingsChange old new i).rt = l.rt := by unfold Lane.settingsChange; split <;> rfl
@[simp] theorem lane_settingsChange_block (old new : Settings) (i : LaneNo) (l : Lane) :
    (l.settingsChange old new i).block = l.block := by unfold Lane.settingsChange; split <;> rfl
@[simp] theorem lane_settingsChange_lastBlock (old new : Settings) (i : LaneNo) (l : Lane) :
    (l.settingsChange old new i).lastBlock = l.lastBlock := by unfold Lane.settingsChange; split <;> rfl

/-! ### What a starter's recall changes -/

@[simp] theorem amendReport_report :
    s.amendReport.report =
      s.report.map fun r => if r.outcome = .clean then { r with outcome := .starterRecall, recallCause := some .starter } else r :=
  rfl

/-- In WATCH a starter's recall only issues; in RUNNING it also amends the report, cancels the deadline and enters REVIEW
(R37, R43, R147). -/
theorem starterRecall_heat :
    s.starterRecall.heat =
      if s.heat.state = .running then { (s.issueRecall .starter).heat with deadlineTime := none, state := .review }
      else (s.issueRecall .starter).heat := by
  unfold State.starterRecall
  split <;> simp

theorem starterRecall_report :
    s.starterRecall.report = if s.heat.state = .running then s.amendReport.report else s.report := by
  unfold State.starterRecall
  split <;> simp

/-! ### The bib index -/

/-- Membership after an insertion. -/
theorem mem_indexInsert (bib : Nat) (i : LaneNo) (index : List (Nat × LaneNo)) (p : Nat × LaneNo) :
    p ∈ indexInsert bib i index ↔ p = (bib, i) ∨ p ∈ index := by
  induction index with
  | nil => simp [indexInsert]
  | cons q rest ih =>
    obtain ⟨b, j⟩ := q
    simp only [indexInsert]
    split
    · simp
    · simp [ih, or_left_comm]

/-- An insertion of a new bib keeps the index in strictly ascending order (R9). -/
theorem indexInsert_sorted (bib : Nat) (i : LaneNo) (index : List (Nat × LaneNo))
    (hs : index.Pairwise fun p q => p.1 < q.1) (hn : ∀ p ∈ index, p.1 ≠ bib) :
    (indexInsert bib i index).Pairwise fun p q => p.1 < q.1 := by
  induction index with
  | nil => simp [indexInsert]
  | cons q rest ih =>
    obtain ⟨b, j⟩ := q
    have hb : b ≠ bib := hn (b, j) (by simp)
    simp only [List.pairwise_cons] at hs
    simp only [indexInsert]
    split
    · next hlt =>
      simp only [List.pairwise_cons, List.mem_cons, forall_eq_or_imp]
      exact ⟨⟨hlt, fun p hp => Nat.lt_trans hlt (hs.1 p hp)⟩, hs.1, hs.2⟩
    · next hlt =>
      simp only [List.pairwise_cons]
      refine ⟨fun p hp => ?_, ih hs.2 fun p hp => hn p (by simp [hp])⟩
      rcases (mem_indexInsert bib i rest p).1 hp with rfl | h
      · show b < bib
        omega
      · exact hs.1 p h

/-- A bib is not found exactly when no entry carries it (R19). -/
theorem indexFind_none (bib : Nat) (index : List (Nat × LaneNo)) : indexFind bib index = none ↔ ∀ p ∈ index, p.1 ≠ bib := by
  simp [indexFind, List.find?_eq_none]

/-- A lane found is paired with the bib (R19). -/
theorem indexFind_mem {bib : Nat} {index : List (Nat × LaneNo)} {i : LaneNo} (h : indexFind bib index = some i) :
    (bib, i) ∈ index := by
  simp only [indexFind, Option.map_eq_some_iff] at h
  obtain ⟨⟨b, j⟩, hf, rfl⟩ := h
  have := List.mem_of_find?_eq_some hf
  have hb := List.find?_some hf
  simp_all

end Sys2Proof.Laws
end

