-- ==== Sys2Proof/Laws/Commands.lean ====
section
/-! SUPPORT. What each command's operation leaves unchanged and what it gives; how a command is taken; what a step can be. -/

namespace Sys2Proof.Laws

open Sys2Proof.Machine

variable (s : State)

/-! ### Frames: a field that an operation does not name -/

@[simp] theorem discard_pending : (s.discard).pending = s.pending := by simp [State.discard]
@[simp] theorem discard_trackTime : (s.discard).trackTime = s.trackTime := by simp [State.discard]
@[simp] theorem discard_inReset : (s.discard).inReset = s.inReset := by simp [State.discard]
@[simp] theorem discard_profileWp : (s.discard).profileWp = s.profileWp := by simp [State.discard]
@[simp] theorem discard_sckHigh : (s.discard).sckHigh = s.sckHigh := by simp [State.discard]
@[simp] theorem discard_edges : (s.discard).edges = s.edges := by simp [State.discard]
@[simp] theorem discard_linkA : (s.discard).linkA = s.linkA := by simp [State.discard]
@[simp] theorem discard_linkB : (s.discard).linkB = s.linkB := by simp [State.discard]
@[simp] theorem discard_gun : (s.discard).gun = s.gun := by simp [State.discard]
@[simp] theorem discard_heat : (s.discard).heat = s.heat := by simp [State.discard]
@[simp] theorem discard_lanes : (s.discard).lanes = s.lanes := by simp [State.discard]
@[simp] theorem discard_bibIndex : (s.discard).bibIndex = s.bibIndex := by simp [State.discard]
@[simp] theorem discard_report : (s.discard).report = s.report := by simp [State.discard]
@[simp] theorem discard_settings : (s.discard).settings = s.settings := by simp [State.discard]
@[simp] theorem discard_profile : (s.discard).profile = s.profile := by simp [State.discard]
@[simp] theorem discard_nvm : (s.discard).nvm = s.nvm := by simp [State.discard]
@[simp] theorem discard_freeCount : (s.discard).freeCount = s.freeCount := by simp [State.discard]

@[simp] theorem setLevel_pending (x : NoticeSource) (v : Fin 8) : (s.setLevel x v).pending = s.pending := rfl
@[simp] theorem setLevel_trackTime (x : NoticeSource) (v : Fin 8) : (s.setLevel x v).trackTime = s.trackTime := rfl
@[simp] theorem setLevel_inReset (x : NoticeSource) (v : Fin 8) : (s.setLevel x v).inReset = s.inReset := rfl
@[simp] theorem setLevel_profileWp (x : NoticeSource) (v : Fin 8) : (s.setLevel x v).profileWp = s.profileWp := rfl
@[simp] theorem setLevel_sckHigh (x : NoticeSource) (v : Fin 8) : (s.setLevel x v).sckHigh = s.sckHigh := rfl
@[simp] theorem setLevel_edges (x : NoticeSource) (v : Fin 8) : (s.setLevel x v).edges = s.edges := rfl
@[simp] theorem setLevel_port (x : NoticeSource) (v : Fin 8) : (s.setLevel x v).port = s.port := rfl
@[simp] theorem setLevel_linkA (x : NoticeSource) (v : Fin 8) : (s.setLevel x v).linkA = s.linkA := rfl
@[simp] theorem setLevel_linkB (x : NoticeSource) (v : Fin 8) : (s.setLevel x v).linkB = s.linkB := rfl
@[simp] theorem setLevel_gun (x : NoticeSource) (v : Fin 8) : (s.setLevel x v).gun = s.gun := rfl
@[simp] theorem setLevel_heat (x : NoticeSource) (v : Fin 8) : (s.setLevel x v).heat = s.heat := rfl
@[simp] theorem setLevel_lanes (x : NoticeSource) (v : Fin 8) : (s.setLevel x v).lanes = s.lanes := rfl
@[simp] theorem setLevel_bibIndex (x : NoticeSource) (v : Fin 8) : (s.setLevel x v).bibIndex = s.bibIndex := rfl
@[simp] theorem setLevel_report (x : NoticeSource) (v : Fin 8) : (s.setLevel x v).report = s.report := rfl
@[simp] theorem setLevel_settings (x : NoticeSource) (v : Fin 8) : (s.setLevel x v).settings = s.settings := rfl
@[simp] theorem setLevel_profile (x : NoticeSource) (v : Fin 8) : (s.setLevel x v).profile = s.profile := rfl
@[simp] theorem setLevel_nvm (x : NoticeSource) (v : Fin 8) : (s.setLevel x v).nvm = s.nvm := rfl
@[simp] theorem setLevel_freeCount (x : NoticeSource) (v : Fin 8) : (s.setLevel x v).freeCount = s.freeCount := rfl

@[simp] theorem answered_pending (k : Byte) (n : Nat) (o : Owned) : (State.answered k n o).pending = o.1.pending := by
  simp [State.answered]
@[simp] theorem answered_trackTime (k : Byte) (n : Nat) (o : Owned) : (State.answered k n o).trackTime = o.1.trackTime := by
  simp [State.answered]
@[simp] theorem answered_inReset (k : Byte) (n : Nat) (o : Owned) : (State.answered k n o).inReset = o.1.inReset := by
  simp [State.answered]
@[simp] theorem answered_profileWp (k : Byte) (n : Nat) (o : Owned) : (State.answered k n o).profileWp = o.1.profileWp := by
  simp [State.answered]
@[simp] theorem answered_sckHigh (k : Byte) (n : Nat) (o : Owned) : (State.answered k n o).sckHigh = o.1.sckHigh := by
  simp [State.answered]
@[simp] theorem answered_edges (k : Byte) (n : Nat) (o : Owned) : (State.answered k n o).edges = o.1.edges := by
  simp [State.answered]
@[simp] theorem answered_linkA (k : Byte) (n : Nat) (o : Owned) : (State.answered k n o).linkA = o.1.linkA := by
  simp [State.answered]
@[simp] theorem answered_linkB (k : Byte) (n : Nat) (o : Owned) : (State.answered k n o).linkB = o.1.linkB := by
  simp [State.answered]
@[simp] theorem answered_gun (k : Byte) (n : Nat) (o : Owned) : (State.answered k n o).gun = o.1.gun := by
  simp [State.answered]
@[simp] theorem answered_heat (k : Byte) (n : Nat) (o : Owned) : (State.answered k n o).heat = o.1.heat := by
  simp [State.answered]
@[simp] theorem answered_lanes (k : Byte) (n : Nat) (o : Owned) : (State.answered k n o).lanes = o.1.lanes := by
  simp [State.answered]
@[simp] theorem answered_bibIndex (k : Byte) (n : Nat) (o : Owned) : (State.answered k n o).bibIndex = o.1.bibIndex := by
  simp [State.answered]
@[simp] theorem answered_report (k : Byte) (n : Nat) (o : Owned) : (State.answered k n o).report = o.1.report := by
  simp [State.answered]
@[simp] theorem answered_settings (k : Byte) (n : Nat) (o : Owned) : (State.answered k n o).settings = o.1.settings := by
  simp [State.answered]
@[simp] theorem answered_profile (k : Byte) (n : Nat) (o : Owned) : (State.answered k n o).profile = o.1.profile := by
  simp [State.answered]
@[simp] theorem answered_nvm (k : Byte) (n : Nat) (o : Owned) : (State.answered k n o).nvm = o.1.nvm := by
  simp [State.answered]
@[simp] theorem answered_freeCount (k : Byte) (n : Nat) (o : Owned) : (State.answered k n o).freeCount = o.1.freeCount := by
  simp [State.answered]

@[simp] theorem judge_pending : (s.judge).pending = s.pending := rfl
@[simp] theorem judge_trackTime : (s.judge).trackTime = s.trackTime := rfl
@[simp] theorem judge_inReset : (s.judge).inReset = s.inReset := rfl
@[simp] theorem judge_profileWp : (s.judge).profileWp = s.profileWp := rfl
@[simp] theorem judge_sckHigh : (s.judge).sckHigh = s.sckHigh := rfl
@[simp] theorem judge_edges : (s.judge).edges = s.edges := rfl
@[simp] theorem judge_port : (s.judge).port = s.port := rfl
@[simp] theorem judge_linkA : (s.judge).linkA = s.linkA := rfl
@[simp] theorem judge_linkB : (s.judge).linkB = s.linkB := rfl
@[simp] theorem judge_gun : (s.judge).gun = s.gun := rfl
@[simp] theorem judge_bibIndex : (s.judge).bibIndex = s.bibIndex := rfl
@[simp] theorem judge_notices : (s.judge).notices = s.notices := rfl
@[simp] theorem judge_settings : (s.judge).settings = s.settings := rfl
@[simp] theorem judge_profile : (s.judge).profile = s.profile := rfl
@[simp] theorem judge_nvm : (s.judge).nvm = s.nvm := rfl
@[simp] theorem judge_freeCount : (s.judge).freeCount = s.freeCount := rfl

@[simp] theorem judgeStandUp_pending : (s.judgeStandUp).pending = s.pending := rfl
@[simp] theorem judgeStandUp_trackTime : (s.judgeStandUp).trackTime = s.trackTime := rfl
@[simp] theorem judgeStandUp_inReset : (s.judgeStandUp).inReset = s.inReset := rfl
@[simp] theorem judgeStandUp_profileWp : (s.judgeStandUp).profileWp = s.profileWp := rfl
@[simp] theorem judgeStandUp_sckHigh : (s.judgeStandUp).sckHigh = s.sckHigh := rfl
@[simp] theorem judgeStandUp_edges : (s.judgeStandUp).edges = s.edges := rfl
@[simp] theorem judgeStandUp_port : (s.judgeStandUp).port = s.port := rfl
@[simp] theorem judgeStandUp_linkA : (s.judgeStandUp).linkA = s.linkA := rfl
@[simp] theorem judgeStandUp_linkB : (s.judgeStandUp).linkB = s.linkB := rfl
@[simp] theorem judgeStandUp_gun : (s.judgeStandUp).gun = s.gun := rfl
@[simp] theorem judgeStandUp_heat : (s.judgeStandUp).heat = s.heat := rfl
@[simp] theorem judgeStandUp_bibIndex : (s.judgeStandUp).bibIndex = s.bibIndex := rfl
@[simp] theorem judgeStandUp_notices : (s.judgeStandUp).notices = s.notices := rfl
@[simp] theorem judgeStandUp_settings : (s.judgeStandUp).settings = s.settings := rfl
@[simp] theorem judgeStandUp_profile : (s.judgeStandUp).profile = s.profile := rfl
@[simp] theorem judgeStandUp_nvm : (s.judgeStandUp).nvm = s.nvm := rfl
@[simp] theorem judgeStandUp_freeCount : (s.judgeStandUp).freeCount = s.freeCount := rfl

@[simp] theorem beginAttempt_pending : (s.beginAttempt).pending = s.pending := rfl
@[simp] theorem beginAttempt_trackTime : (s.beginAttempt).trackTime = s.trackTime := rfl
@[simp] theorem beginAttempt_inReset : (s.beginAttempt).inReset = s.inReset := rfl
@[simp] theorem beginAttempt_profileWp : (s.beginAttempt).profileWp = s.profileWp := rfl
@[simp] theorem beginAttempt_sckHigh : (s.beginAttempt).sckHigh = s.sckHigh := rfl
@[simp] theorem beginAttempt_edges : (s.beginAttempt).edges = s.edges := rfl
@[simp] theorem beginAttempt_port : (s.beginAttempt).port = s.port := rfl
@[simp] theorem beginAttempt_linkA : (s.beginAttempt).linkA = s.linkA := rfl
@[simp] theorem beginAttempt_linkB : (s.beginAttempt).linkB = s.linkB := rfl
@[simp] theorem beginAttempt_gun : (s.beginAttempt).gun = s.gun := rfl
@[simp] theorem beginAttempt_bibIndex : (s.beginAttempt).bibIndex = s.bibIndex := rfl
@[simp] theorem beginAttempt_report : (s.beginAttempt).report = s.report := rfl
@[simp] theorem beginAttempt_notices : (s.beginAttempt).notices = s.notices := rfl
@[simp] theorem beginAttempt_settings : (s.beginAttempt).settings = s.settings := rfl
@[simp] theorem beginAttempt_profile : (s.beginAttempt).profile = s.profile := rfl
@[simp] theorem beginAttempt_nvm : (s.beginAttempt).nvm = s.nvm := rfl
@[simp] theorem beginAttempt_freeCount : (s.beginAttempt).freeCount = s.freeCount := rfl

@[simp] theorem setField_pending : (s.setField).pending = s.pending := by simp [State.setField]
@[simp] theorem setField_trackTime : (s.setField).trackTime = s.trackTime := by simp [State.setField]
@[simp] theorem setField_inReset : (s.setField).inReset = s.inReset := by simp [State.setField]
@[simp] theorem setField_profileWp : (s.setField).profileWp = s.profileWp := by simp [State.setField]
@[simp] theorem setField_sckHigh : (s.setField).sckHigh = s.sckHigh := by simp [State.setField]
@[simp] theorem setField_edges : (s.setField).edges = s.edges := by simp [State.setField]
@[simp] theorem setField_port : (s.setField).port = s.port := by simp [State.setField]
@[simp] theorem setField_linkA : (s.setField).linkA = s.linkA := by simp [State.setField]
@[simp] theorem setField_linkB : (s.setField).linkB = s.linkB := by simp [State.setField]
@[simp] theorem setField_bibIndex : (s.setField).bibIndex = s.bibIndex := by simp [State.setField]
@[simp] theorem setField_report : (s.setField).report = s.report := by simp [State.setField]
@[simp] theorem setField_settings : (s.setField).settings = s.settings := by simp [State.setField]
@[simp] theorem setField_profile : (s.setField).profile = s.profile := by simp [State.setField]
@[simp] theorem setField_nvm : (s.setField).nvm = s.nvm := by simp [State.setField]
@[simp] theorem setField_freeCount : (s.setField).freeCount = s.freeCount := by simp [State.setField]

@[simp] theorem endAttempt_pending : (s.endAttempt).pending = s.pending := rfl
@[simp] theorem endAttempt_trackTime : (s.endAttempt).trackTime = s.trackTime := rfl
@[simp] theorem endAttempt_inReset : (s.endAttempt).inReset = s.inReset := rfl
@[simp] theorem endAttempt_profileWp : (s.endAttempt).profileWp = s.profileWp := rfl
@[simp] theorem endAttempt_sckHigh : (s.endAttempt).sckHigh = s.sckHigh := rfl
@[simp] theorem endAttempt_edges : (s.endAttempt).edges = s.edges := rfl
@[simp] theorem endAttempt_port : (s.endAttempt).port = s.port := rfl
@[simp] theorem endAttempt_linkA : (s.endAttempt).linkA = s.linkA := rfl
@[simp] theorem endAttempt_linkB : (s.endAttempt).linkB = s.linkB := rfl
@[simp] theorem endAttempt_gun : (s.endAttempt).gun = s.gun := rfl
@[simp] theorem endAttempt_heat : (s.endAttempt).heat = s.heat := rfl
@[simp] theorem endAttempt_bibIndex : (s.endAttempt).bibIndex = s.bibIndex := rfl
@[simp] theorem endAttempt_report : (s.endAttempt).report = s.report := rfl
@[simp] theorem endAttempt_notices : (s.endAttempt).notices = s.notices := rfl
@[simp] theorem endAttempt_settings : (s.endAttempt).settings = s.settings := rfl
@[simp] theorem endAttempt_profile : (s.endAttempt).profile = s.profile := rfl
@[simp] theorem endAttempt_nvm : (s.endAttempt).nvm = s.nvm := rfl
@[simp] theorem endAttempt_freeCount : (s.endAttempt).freeCount = s.freeCount := rfl

@[simp] theorem standField_pending : (s.standField).pending = s.pending := by simp [State.standField]
@[simp] theorem standField_trackTime : (s.standField).trackTime = s.trackTime := by simp [State.standField]
@[simp] theorem standField_inReset : (s.standField).inReset = s.inReset := by simp [State.standField]
@[simp] theorem standField_profileWp : (s.standField).profileWp = s.profileWp := by simp [State.standField]
@[simp] theorem standField_sckHigh : (s.standField).sckHigh = s.sckHigh := by simp [State.standField]
@[simp] theorem standField_edges : (s.standField).edges = s.edges := by simp [State.standField]
@[simp] theorem standField_port : (s.standField).port = s.port := by simp [State.standField]
@[simp] theorem standField_linkA : (s.standField).linkA = s.linkA := by simp [State.standField]
@[simp] theorem standField_linkB : (s.standField).linkB = s.linkB := by simp [State.standField]
@[simp] theorem standField_bibIndex : (s.standField).bibIndex = s.bibIndex := by simp [State.standField]
@[simp] theorem standField_settings : (s.standField).settings = s.settings := by simp [State.standField]
@[simp] theorem standField_profile : (s.standField).profile = s.profile := by simp [State.standField]
@[simp] theorem standField_nvm : (s.standField).nvm = s.nvm := by simp [State.standField]
@[simp] theorem standField_freeCount : (s.standField).freeCount = s.freeCount := by simp [State.standField]

@[simp] theorem passDeadline_pending : (s.passDeadline).pending = s.pending := rfl
@[simp] theorem passDeadline_trackTime : (s.passDeadline).trackTime = s.trackTime := rfl
@[simp] theorem passDeadline_inReset : (s.passDeadline).inReset = s.inReset := rfl
@[simp] theorem passDeadline_profileWp : (s.passDeadline).profileWp = s.profileWp := rfl
@[simp] theorem passDeadline_sckHigh : (s.passDeadline).sckHigh = s.sckHigh := rfl
@[simp] theorem passDeadline_edges : (s.passDeadline).edges = s.edges := rfl
@[simp] theorem passDeadline_port : (s.passDeadline).port = s.port := rfl
@[simp] theorem passDeadline_linkA : (s.passDeadline).linkA = s.linkA := rfl
@[simp] theorem passDeadline_linkB : (s.passDeadline).linkB = s.linkB := rfl
@[simp] theorem passDeadline_gun : (s.passDeadline).gun = s.gun := rfl
@[simp] theorem passDeadline_lanes : (s.passDeadline).lanes = s.lanes := rfl
@[simp] theorem passDeadline_bibIndex : (s.passDeadline).bibIndex = s.bibIndex := rfl
@[simp] theorem passDeadline_report : (s.passDeadline).report = s.report := rfl
@[simp] theorem passDeadline_settings : (s.passDeadline).settings = s.settings := rfl
@[simp] theorem passDeadline_profile : (s.passDeadline).profile = s.profile := rfl
@[simp] theorem passDeadline_nvm : (s.passDeadline).nvm = s.nvm := rfl
@[simp] theorem passDeadline_freeCount : (s.passDeadline).freeCount = s.freeCount := rfl

@[simp] theorem leaveWatch_pending (o : AttemptOutcome) : (s.leaveWatch o).pending = s.pending := by unfold State.leaveWatch; split <;> rfl
@[simp] theorem leaveWatch_trackTime (o : AttemptOutcome) : (s.leaveWatch o).trackTime = s.trackTime := by unfold State.leaveWatch; split <;> rfl
@[simp] theorem leaveWatch_inReset (o : AttemptOutcome) : (s.leaveWatch o).inReset = s.inReset := by unfold State.leaveWatch; split <;> rfl
@[simp] theorem leaveWatch_profileWp (o : AttemptOutcome) : (s.leaveWatch o).profileWp = s.profileWp := by unfold State.leaveWatch; split <;> rfl
@[simp] theorem leaveWatch_sckHigh (o : AttemptOutcome) : (s.leaveWatch o).sckHigh = s.sckHigh := by unfold State.leaveWatch; split <;> rfl
@[simp] theorem leaveWatch_edges (o : AttemptOutcome) : (s.leaveWatch o).edges = s.edges := by unfold State.leaveWatch; split <;> rfl
@[simp] theorem leaveWatch_port (o : AttemptOutcome) : (s.leaveWatch o).port = s.port := by unfold State.leaveWatch; split <;> rfl
@[simp] theorem leaveWatch_linkA (o : AttemptOutcome) : (s.leaveWatch o).linkA = s.linkA := by unfold State.leaveWatch; split <;> rfl
@[simp] theorem leaveWatch_linkB (o : AttemptOutcome) : (s.leaveWatch o).linkB = s.linkB := by unfold State.leaveWatch; split <;> rfl
@[simp] theorem leaveWatch_gun (o : AttemptOutcome) : (s.leaveWatch o).gun = s.gun := by unfold State.leaveWatch; split <;> rfl
@[simp] theorem leaveWatch_lanes (o : AttemptOutcome) : (s.leaveWatch o).lanes = s.lanes := by unfold State.leaveWatch; split <;> rfl
@[simp] theorem leaveWatch_bibIndex (o : AttemptOutcome) : (s.leaveWatch o).bibIndex = s.bibIndex := by unfold State.leaveWatch; split <;> rfl
@[simp] theorem leaveWatch_report (o : AttemptOutcome) : (s.leaveWatch o).report = s.report := by unfold State.leaveWatch; split <;> rfl
@[simp] theorem leaveWatch_notices (o : AttemptOutcome) : (s.leaveWatch o).notices = s.notices := by unfold State.leaveWatch; split <;> rfl
@[simp] theorem leaveWatch_settings (o : AttemptOutcome) : (s.leaveWatch o).settings = s.settings := by unfold State.leaveWatch; split <;> rfl
@[simp] theorem leaveWatch_profile (o : AttemptOutcome) : (s.leaveWatch o).profile = s.profile := by unfold State.leaveWatch; split <;> rfl
@[simp] theorem leaveWatch_nvm (o : AttemptOutcome) : (s.leaveWatch o).nvm = s.nvm := by unfold State.leaveWatch; split <;> rfl
@[simp] theorem leaveWatch_freeCount (o : AttemptOutcome) : (s.leaveWatch o).freeCount = s.freeCount := by unfold State.leaveWatch; split <;> rfl

@[simp] theorem closeAttempt_pending : (s.closeAttempt).pending = s.pending := by unfold State.closeAttempt; dsimp only; split <;> simp
@[simp] theorem closeAttempt_trackTime : (s.closeAttempt).trackTime = s.trackTime := by unfold State.closeAttempt; dsimp only; split <;> simp
@[simp] theorem closeAttempt_inReset : (s.closeAttempt).inReset = s.inReset := by unfold State.closeAttempt; dsimp only; split <;> simp
@[simp] theorem closeAttempt_profileWp : (s.closeAttempt).profileWp = s.profileWp := by unfold State.closeAttempt; dsimp only; split <;> simp
@[simp] theorem closeAttempt_sckHigh : (s.closeAttempt).sckHigh = s.sckHigh := by unfold State.closeAttempt; dsimp only; split <;> simp
@[simp] theorem closeAttempt_edges : (s.closeAttempt).edges = s.edges := by unfold State.closeAttempt; dsimp only; split <;> simp
@[simp] theorem closeAttempt_port : (s.closeAttempt).port = s.port := by unfold State.closeAttempt; dsimp only; split <;> simp
@[simp] theorem closeAttempt_linkA : (s.closeAttempt).linkA = s.linkA := by unfold State.closeAttempt; dsimp only; split <;> simp
@[simp] theorem closeAttempt_linkB : (s.closeAttempt).linkB = s.linkB := by unfold State.closeAttempt; dsimp only; split <;> simp
@[simp] theorem closeAttempt_gun : (s.closeAttempt).gun = s.gun := by unfold State.closeAttempt; dsimp only; split <;> simp
@[simp] theorem closeAttempt_bibIndex : (s.closeAttempt).bibIndex = s.bibIndex := by unfold State.closeAttempt; dsimp only; split <;> simp
@[simp] theorem closeAttempt_settings : (s.closeAttempt).settings = s.settings := by unfold State.closeAttempt; dsimp only; split <;> simp
@[simp] theorem closeAttempt_profile : (s.closeAttempt).profile = s.profile := by unfold State.closeAttempt; dsimp only; split <;> simp
@[simp] theorem closeAttempt_nvm : (s.closeAttempt).nvm = s.nvm := by unfold State.closeAttempt; dsimp only; split <;> simp
@[simp] theorem closeAttempt_freeCount : (s.closeAttempt).freeCount = s.freeCount := by unfold State.closeAttempt; dsimp only; split <;> simp

@[simp] theorem startAttempt_pending (g : Stamp) : (s.startAttempt g).pending = s.pending := by simp [State.startAttempt]
@[simp] theorem startAttempt_trackTime (g : Stamp) : (s.startAttempt g).trackTime = s.trackTime := by simp [State.startAttempt]
@[simp] theorem startAttempt_inReset (g : Stamp) : (s.startAttempt g).inReset = s.inReset := by simp [State.startAttempt]
@[simp] theorem startAttempt_profileWp (g : Stamp) : (s.startAttempt g).profileWp = s.profileWp := by simp [State.startAttempt]
@[simp] theorem startAttempt_sckHigh (g : Stamp) : (s.startAttempt g).sckHigh = s.sckHigh := by simp [State.startAttempt]
@[simp] theorem startAttempt_edges (g : Stamp) : (s.startAttempt g).edges = s.edges := by simp [State.startAttempt]
@[simp] theorem startAttempt_port (g : Stamp) : (s.startAttempt g).port = s.port := by simp [State.startAttempt]
@[simp] theorem startAttempt_linkA (g : Stamp) : (s.startAttempt g).linkA = s.linkA := by simp [State.startAttempt]
@[simp] theorem startAttempt_linkB (g : Stamp) : (s.startAttempt g).linkB = s.linkB := by simp [State.startAttempt]
@[simp] theorem startAttempt_bibIndex (g : Stamp) : (s.startAttempt g).bibIndex = s.bibIndex := by simp [State.startAttempt]
@[simp] theorem startAttempt_report (g : Stamp) : (s.startAttempt g).report = s.report := by simp [State.startAttempt]
@[simp] theorem startAttempt_settings (g : Stamp) : (s.startAttempt g).settings = s.settings := by simp [State.startAttempt]
@[simp] theorem startAttempt_profile (g : Stamp) : (s.startAttempt g).profile = s.profile := by simp [State.startAttempt]
@[simp] theorem startAttempt_nvm (g : Stamp) : (s.startAttempt g).nvm = s.nvm := by simp [State.startAttempt]
@[simp] theorem startAttempt_freeCount (g : Stamp) : (s.startAttempt g).freeCount = s.freeCount := by simp [State.startAttempt]

@[simp] theorem takeGun_pending (g : Stamp) : (s.takeGun g).pending = s.pending := by unfold State.takeGun; split <;> simp
@[simp] theorem takeGun_trackTime (g : Stamp) : (s.takeGun g).trackTime = s.trackTime := by unfold State.takeGun; split <;> simp
@[simp] theorem takeGun_inReset (g : Stamp) : (s.takeGun g).inReset = s.inReset := by unfold State.takeGun; split <;> simp
@[simp] theorem takeGun_profileWp (g : Stamp) : (s.takeGun g).profileWp = s.profileWp := by unfold State.takeGun; split <;> simp
@[simp] theorem takeGun_sckHigh (g : Stamp) : (s.takeGun g).sckHigh = s.sckHigh := by unfold State.takeGun; split <;> simp
@[simp] theorem takeGun_edges (g : Stamp) : (s.takeGun g).edges = s.edges := by unfold State.takeGun; split <;> simp
@[simp] theorem takeGun_port (g : Stamp) : (s.takeGun g).port = s.port := by unfold State.takeGun; split <;> simp
@[simp] theorem takeGun_linkA (g : Stamp) : (s.takeGun g).linkA = s.linkA := by unfold State.takeGun; split <;> simp
@[simp] theorem takeGun_linkB (g : Stamp) : (s.takeGun g).linkB = s.linkB := by unfold State.takeGun; split <;> simp
@[simp] theorem takeGun_bibIndex (g : Stamp) : (s.takeGun g).bibIndex = s.bibIndex := by unfold State.takeGun; split <;> simp
@[simp] theorem takeGun_settings (g : Stamp) : (s.takeGun g).settings = s.settings := by unfold State.takeGun; split <;> simp
@[simp] theorem takeGun_profile (g : Stamp) : (s.takeGun g).profile = s.profile := by unfold State.takeGun; split <;> simp
@[simp] theorem takeGun_nvm (g : Stamp) : (s.takeGun g).nvm = s.nvm := by unfold State.takeGun; split <;> simp
@[simp] theorem takeGun_freeCount (g : Stamp) : (s.takeGun g).freeCount = s.freeCount := by unfold State.takeGun; split <;> simp

@[simp] theorem acceptGun_pending (q : Qualification) : (s.acceptGun q).pending = s.pending := by simp [State.acceptGun]
@[simp] theorem acceptGun_trackTime (q : Qualification) : (s.acceptGun q).trackTime = s.trackTime := by simp [State.acceptGun]
@[simp] theorem acceptGun_inReset (q : Qualification) : (s.acceptGun q).inReset = s.inReset := by simp [State.acceptGun]
@[simp] theorem acceptGun_profileWp (q : Qualification) : (s.acceptGun q).profileWp = s.profileWp := by simp [State.acceptGun]
@[simp] theorem acceptGun_sckHigh (q : Qualification) : (s.acceptGun q).sckHigh = s.sckHigh := by simp [State.acceptGun]
@[simp] theorem acceptGun_edges (q : Qualification) : (s.acceptGun q).edges = s.edges := by simp [State.acceptGun]
@[simp] theorem acceptGun_port (q : Qualification) : (s.acceptGun q).port = s.port := by simp [State.acceptGun]
@[simp] theorem acceptGun_linkA (q : Qualification) : (s.acceptGun q).linkA = s.linkA := by simp [State.acceptGun]
@[simp] theorem acceptGun_linkB (q : Qualification) : (s.acceptGun q).linkB = s.linkB := by simp [State.acceptGun]
@[simp] theorem acceptGun_bibIndex (q : Qualification) : (s.acceptGun q).bibIndex = s.bibIndex := by simp [State.acceptGun]
@[simp] theorem acceptGun_settings (q : Qualification) : (s.acceptGun q).settings = s.settings := by simp [State.acceptGun]
@[simp] theorem acceptGun_profile (q : Qualification) : (s.acceptGun q).profile = s.profile := by simp [State.acceptGun]
@[simp] theorem acceptGun_nvm (q : Qualification) : (s.acceptGun q).nvm = s.nvm := by simp [State.acceptGun]
@[simp] theorem acceptGun_freeCount (q : Qualification) : (s.acceptGun q).freeCount = s.freeCount := by simp [State.acceptGun]

@[simp] theorem loseLink_pending (l : LinkId) : (s.loseLink l).pending = s.pending := by simp [State.loseLink]
@[simp] theorem loseLink_trackTime (l : LinkId) : (s.loseLink l).trackTime = s.trackTime := by simp [State.loseLink]
@[simp] theorem loseLink_inReset (l : LinkId) : (s.loseLink l).inReset = s.inReset := by simp [State.loseLink]
@[simp] theorem loseLink_profileWp (l : LinkId) : (s.loseLink l).profileWp = s.profileWp := by simp [State.loseLink]
@[simp] theorem loseLink_sckHigh (l : LinkId) : (s.loseLink l).sckHigh = s.sckHigh := by simp [State.loseLink]
@[simp] theorem loseLink_edges (l : LinkId) : (s.loseLink l).edges = s.edges := by simp [State.loseLink]
@[simp] theorem loseLink_port (l : LinkId) : (s.loseLink l).port = s.port := by simp [State.loseLink]
@[simp] theorem loseLink_bibIndex (l : LinkId) : (s.loseLink l).bibIndex = s.bibIndex := by simp [State.loseLink]
@[simp] theorem loseLink_report (l : LinkId) : (s.loseLink l).report = s.report := by simp [State.loseLink]
@[simp] theorem loseLink_settings (l : LinkId) : (s.loseLink l).settings = s.settings := by simp [State.loseLink]
@[simp] theorem loseLink_profile (l : LinkId) : (s.loseLink l).profile = s.profile := by simp [State.loseLink]
@[simp] theorem loseLink_nvm (l : LinkId) : (s.loseLink l).nvm = s.nvm := by simp [State.loseLink]
@[simp] theorem loseLink_freeCount (l : LinkId) : (s.loseLink l).freeCount = s.freeCount := by simp [State.loseLink]

@[simp] theorem lockedAt_pending (l : LinkId) (p : Stamp) (q : Bool) (w : BitVec 16) : (s.lockedAt l p q w).pending = s.pending := by unfold State.lockedAt; dsimp only; split <;> [skip; split <;> [skip; split]] <;> simp
@[simp] theorem lockedAt_trackTime (l : LinkId) (p : Stamp) (q : Bool) (w : BitVec 16) : (s.lockedAt l p q w).trackTime = s.trackTime := by unfold State.lockedAt; dsimp only; split <;> [skip; split <;> [skip; split]] <;> simp
@[simp] theorem lockedAt_inReset (l : LinkId) (p : Stamp) (q : Bool) (w : BitVec 16) : (s.lockedAt l p q w).inReset = s.inReset := by unfold State.lockedAt; dsimp only; split <;> [skip; split <;> [skip; split]] <;> simp
@[simp] theorem lockedAt_profileWp (l : LinkId) (p : Stamp) (q : Bool) (w : BitVec 16) : (s.lockedAt l p q w).profileWp = s.profileWp := by unfold State.lockedAt; dsimp only; split <;> [skip; split <;> [skip; split]] <;> simp
@[simp] theorem lockedAt_sckHigh (l : LinkId) (p : Stamp) (q : Bool) (w : BitVec 16) : (s.lockedAt l p q w).sckHigh = s.sckHigh := by unfold State.lockedAt; dsimp only; split <;> [skip; split <;> [skip; split]] <;> simp
@[simp] theorem lockedAt_edges (l : LinkId) (p : Stamp) (q : Bool) (w : BitVec 16) : (s.lockedAt l p q w).edges = s.edges := by unfold State.lockedAt; dsimp only; split <;> [skip; split <;> [skip; split]] <;> simp
@[simp] theorem lockedAt_port (l : LinkId) (p : Stamp) (q : Bool) (w : BitVec 16) : (s.lockedAt l p q w).port = s.port := by unfold State.lockedAt; dsimp only; split <;> [skip; split <;> [skip; split]] <;> simp
@[simp] theorem lockedAt_bibIndex (l : LinkId) (p : Stamp) (q : Bool) (w : BitVec 16) : (s.lockedAt l p q w).bibIndex = s.bibIndex := by unfold State.lockedAt; dsimp only; split <;> [skip; split <;> [skip; split]] <;> simp
@[simp] theorem lockedAt_report (l : LinkId) (p : Stamp) (q : Bool) (w : BitVec 16) : (s.lockedAt l p q w).report = s.report := by unfold State.lockedAt; dsimp only; split <;> [skip; split <;> [skip; split]] <;> simp
@[simp] theorem lockedAt_settings (l : LinkId) (p : Stamp) (q : Bool) (w : BitVec 16) : (s.lockedAt l p q w).settings = s.settings := by unfold State.lockedAt; dsimp only; split <;> [skip; split <;> [skip; split]] <;> simp
@[simp] theorem lockedAt_profile (l : LinkId) (p : Stamp) (q : Bool) (w : BitVec 16) : (s.lockedAt l p q w).profile = s.profile := by unfold State.lockedAt; dsimp only; split <;> [skip; split <;> [skip; split]] <;> simp
@[simp] theorem lockedAt_nvm (l : LinkId) (p : Stamp) (q : Bool) (w : BitVec 16) : (s.lockedAt l p q w).nvm = s.nvm := by unfold State.lockedAt; dsimp only; split <;> [skip; split <;> [skip; split]] <;> simp
@[simp] theorem lockedAt_freeCount (l : LinkId) (p : Stamp) (q : Bool) (w : BitVec 16) : (s.lockedAt l p q w).freeCount = s.freeCount := by unfold State.lockedAt; dsimp only; split <;> [skip; split <;> [skip; split]] <;> simp

@[simp] theorem deliver_pending (l : LinkId) (f : FrameInProgress) (w : Vector (BitVec 40) 6) : (s.deliver l f w).pending = s.pending := by simp [State.deliver]
@[simp] theorem deliver_trackTime (l : LinkId) (f : FrameInProgress) (w : Vector (BitVec 40) 6) : (s.deliver l f w).trackTime = s.trackTime := by simp [State.deliver]
@[simp] theorem deliver_inReset (l : LinkId) (f : FrameInProgress) (w : Vector (BitVec 40) 6) : (s.deliver l f w).inReset = s.inReset := by simp [State.deliver]
@[simp] theorem deliver_profileWp (l : LinkId) (f : FrameInProgress) (w : Vector (BitVec 40) 6) : (s.deliver l f w).profileWp = s.profileWp := by simp [State.deliver]
@[simp] theorem deliver_sckHigh (l : LinkId) (f : FrameInProgress) (w : Vector (BitVec 40) 6) : (s.deliver l f w).sckHigh = s.sckHigh := by simp [State.deliver]
@[simp] theorem deliver_edges (l : LinkId) (f : FrameInProgress) (w : Vector (BitVec 40) 6) : (s.deliver l f w).edges = s.edges := by simp [State.deliver]
@[simp] theorem deliver_port (l : LinkId) (f : FrameInProgress) (w : Vector (BitVec 40) 6) : (s.deliver l f w).port = s.port := by simp [State.deliver]
@[simp] theorem deliver_bibIndex (l : LinkId) (f : FrameInProgress) (w : Vector (BitVec 40) 6) : (s.deliver l f w).bibIndex = s.bibIndex := by simp [State.deliver]
@[simp] theorem deliver_report (l : LinkId) (f : FrameInProgress) (w : Vector (BitVec 40) 6) : (s.deliver l f w).report = s.report := by simp [State.deliver]
@[simp] theorem deliver_settings (l : LinkId) (f : FrameInProgress) (w : Vector (BitVec 40) 6) : (s.deliver l f w).settings = s.settings := by simp [State.deliver]
@[simp] theorem deliver_profile (l : LinkId) (f : FrameInProgress) (w : Vector (BitVec 40) 6) : (s.deliver l f w).profile = s.profile := by simp [State.deliver]
@[simp] theorem deliver_nvm (l : LinkId) (f : FrameInProgress) (w : Vector (BitVec 40) 6) : (s.deliver l f w).nvm = s.nvm := by simp [State.deliver]
@[simp] theorem deliver_freeCount (l : LinkId) (f : FrameInProgress) (w : Vector (BitVec 40) 6) : (s.deliver l f w).freeCount = s.freeCount := by simp [State.deliver]

@[simp] theorem retire_pending : (s.retire).pending = s.pending := rfl
@[simp] theorem retire_trackTime : (s.retire).trackTime = s.trackTime := rfl
@[simp] theorem retire_inReset : (s.retire).inReset = s.inReset := rfl
@[simp] theorem retire_profileWp : (s.retire).profileWp = s.profileWp := rfl
@[simp] theorem retire_sckHigh : (s.retire).sckHigh = s.sckHigh := rfl
@[simp] theorem retire_edges : (s.retire).edges = s.edges := rfl
@[simp] theorem retire_port : (s.retire).port = s.port := rfl
@[simp] theorem retire_linkA : (s.retire).linkA = s.linkA := rfl
@[simp] theorem retire_linkB : (s.retire).linkB = s.linkB := rfl
@[simp] theorem retire_gun : (s.retire).gun = s.gun := rfl
@[simp] theorem retire_notices : (s.retire).notices = s.notices := rfl
@[simp] theorem retire_settings : (s.retire).settings = s.settings := rfl
@[simp] theorem retire_profile : (s.retire).profile = s.profile := rfl
@[simp] theorem retire_nvm : (s.retire).nvm = s.nvm := rfl
@[simp] theorem retire_freeCount : (s.retire).freeCount = s.freeCount := rfl

@[simp] theorem enter_pending (i : LaneNo) (b : Nat) : (s.enter i b).pending = s.pending := rfl
@[simp] theorem enter_trackTime (i : LaneNo) (b : Nat) : (s.enter i b).trackTime = s.trackTime := rfl
@[simp] theorem enter_inReset (i : LaneNo) (b : Nat) : (s.enter i b).inReset = s.inReset := rfl
@[simp] theorem enter_profileWp (i : LaneNo) (b : Nat) : (s.enter i b).profileWp = s.profileWp := rfl
@[simp] theorem enter_sckHigh (i : LaneNo) (b : Nat) : (s.enter i b).sckHigh = s.sckHigh := rfl
@[simp] theorem enter_edges (i : LaneNo) (b : Nat) : (s.enter i b).edges = s.edges := rfl
@[simp] theorem enter_port (i : LaneNo) (b : Nat) : (s.enter i b).port = s.port := rfl
@[simp] theorem enter_linkA (i : LaneNo) (b : Nat) : (s.enter i b).linkA = s.linkA := rfl
@[simp] theorem enter_linkB (i : LaneNo) (b : Nat) : (s.enter i b).linkB = s.linkB := rfl
@[simp] theorem enter_gun (i : LaneNo) (b : Nat) : (s.enter i b).gun = s.gun := rfl
@[simp] theorem enter_heat (i : LaneNo) (b : Nat) : (s.enter i b).heat = s.heat := rfl
@[simp] theorem enter_report (i : LaneNo) (b : Nat) : (s.enter i b).report = s.report := rfl
@[simp] theorem enter_notices (i : LaneNo) (b : Nat) : (s.enter i b).notices = s.notices := rfl
@[simp] theorem enter_settings (i : LaneNo) (b : Nat) : (s.enter i b).settings = s.settings := rfl
@[simp] theorem enter_profile (i : LaneNo) (b : Nat) : (s.enter i b).profile = s.profile := rfl
@[simp] theorem enter_nvm (i : LaneNo) (b : Nat) : (s.enter i b).nvm = s.nvm := rfl
@[simp] theorem enter_freeCount (i : LaneNo) (b : Nat) : (s.enter i b).freeCount = s.freeCount := rfl

@[simp] theorem vacateLane_pending (i : LaneNo) : (s.vacateLane i).pending = s.pending := rfl
@[simp] theorem vacateLane_trackTime (i : LaneNo) : (s.vacateLane i).trackTime = s.trackTime := rfl
@[simp] theorem vacateLane_inReset (i : LaneNo) : (s.vacateLane i).inReset = s.inReset := rfl
@[simp] theorem vacateLane_profileWp (i : LaneNo) : (s.vacateLane i).profileWp = s.profileWp := rfl
@[simp] theorem vacateLane_sckHigh (i : LaneNo) : (s.vacateLane i).sckHigh = s.sckHigh := rfl
@[simp] theorem vacateLane_edges (i : LaneNo) : (s.vacateLane i).edges = s.edges := rfl
@[simp] theorem vacateLane_port (i : LaneNo) : (s.vacateLane i).port = s.port := rfl
@[simp] theorem vacateLane_linkA (i : LaneNo) : (s.vacateLane i).linkA = s.linkA := rfl
@[simp] theorem vacateLane_linkB (i : LaneNo) : (s.vacateLane i).linkB = s.linkB := rfl
@[simp] theorem vacateLane_gun (i : LaneNo) : (s.vacateLane i).gun = s.gun := rfl
@[simp] theorem vacateLane_heat (i : LaneNo) : (s.vacateLane i).heat = s.heat := rfl
@[simp] theorem vacateLane_report (i : LaneNo) : (s.vacateLane i).report = s.report := rfl
@[simp] theorem vacateLane_notices (i : LaneNo) : (s.vacateLane i).notices = s.notices := rfl
@[simp] theorem vacateLane_settings (i : LaneNo) : (s.vacateLane i).settings = s.settings := rfl
@[simp] theorem vacateLane_profile (i : LaneNo) : (s.vacateLane i).profile = s.profile := rfl
@[simp] theorem vacateLane_nvm (i : LaneNo) : (s.vacateLane i).nvm = s.nvm := rfl
@[simp] theorem vacateLane_freeCount (i : LaneNo) : (s.vacateLane i).freeCount = s.freeCount := rfl

@[simp] theorem passUnit_pending : (s.passUnit).pending = s.pending := by unfold State.passUnit; split <;> rfl
@[simp] theorem passUnit_inReset : (s.passUnit).inReset = s.inReset := by unfold State.passUnit; split <;> rfl
@[simp] theorem passUnit_profileWp : (s.passUnit).profileWp = s.profileWp := by unfold State.passUnit; split <;> rfl
@[simp] theorem passUnit_sckHigh : (s.passUnit).sckHigh = s.sckHigh := by unfold State.passUnit; split <;> rfl
@[simp] theorem passUnit_edges : (s.passUnit).edges = s.edges := by unfold State.passUnit; split <;> rfl
@[simp] theorem passUnit_port : (s.passUnit).port = s.port := by unfold State.passUnit; split <;> rfl
@[simp] theorem passUnit_linkA : (s.passUnit).linkA = s.linkA := by unfold State.passUnit; split <;> rfl
@[simp] theorem passUnit_linkB : (s.passUnit).linkB = s.linkB := by unfold State.passUnit; split <;> rfl
@[simp] theorem passUnit_gun : (s.passUnit).gun = s.gun := by unfold State.passUnit; split <;> rfl
@[simp] theorem passUnit_heat : (s.passUnit).heat = s.heat := by unfold State.passUnit; split <;> rfl
@[simp] theorem passUnit_lanes : (s.passUnit).lanes = s.lanes := by unfold State.passUnit; split <;> rfl
@[simp] theorem passUnit_bibIndex : (s.passUnit).bibIndex = s.bibIndex := by unfold State.passUnit; split <;> rfl
@[simp] theorem passUnit_report : (s.passUnit).report = s.report := by unfold State.passUnit; split <;> rfl
@[simp] theorem passUnit_notices : (s.passUnit).notices = s.notices := by unfold State.passUnit; split <;> rfl
@[simp] theorem passUnit_settings : (s.passUnit).settings = s.settings := by unfold State.passUnit; split <;> rfl
@[simp] theorem passUnit_profile : (s.passUnit).profile = s.profile := by unfold State.passUnit; split <;> rfl
@[simp] theorem passUnit_nvm : (s.passUnit).nvm = s.nvm := by unfold State.passUnit; split <;> rfl
@[simp] theorem passUnit_freeCount : (s.passUnit).freeCount = s.freeCount := by unfold State.passUnit; split <;> rfl

@[simp] theorem softResetBlocks_pending : (s.softResetBlocks).pending = s.pending := by simp [State.softResetBlocks]
@[simp] theorem softResetBlocks_trackTime : (s.softResetBlocks).trackTime = s.trackTime := by simp [State.softResetBlocks]
@[simp] theorem softResetBlocks_inReset : (s.softResetBlocks).inReset = s.inReset := by simp [State.softResetBlocks]
@[simp] theorem softResetBlocks_profileWp : (s.softResetBlocks).profileWp = s.profileWp := by simp [State.softResetBlocks]
@[simp] theorem softResetBlocks_sckHigh : (s.softResetBlocks).sckHigh = s.sckHigh := by simp [State.softResetBlocks]
@[simp] theorem softResetBlocks_edges : (s.softResetBlocks).edges = s.edges := by simp [State.softResetBlocks]
@[simp] theorem softResetBlocks_port : (s.softResetBlocks).port = s.port := by simp [State.softResetBlocks]
@[simp] theorem softResetBlocks_nvm : (s.softResetBlocks).nvm = s.nvm := by simp [State.softResetBlocks]
@[simp] theorem softResetBlocks_freeCount : (s.softResetBlocks).freeCount = s.freeCount := by simp [State.softResetBlocks]

@[simp] theorem softReset_pending : (s.softReset).pending = s.pending := by simp [State.softReset]
@[simp] theorem softReset_trackTime : (s.softReset).trackTime = s.trackTime := by simp [State.softReset]
@[simp] theorem softReset_inReset : (s.softReset).inReset = s.inReset := by simp [State.softReset]
@[simp] theorem softReset_profileWp : (s.softReset).profileWp = s.profileWp := by simp [State.softReset]
@[simp] theorem softReset_sckHigh : (s.softReset).sckHigh = s.sckHigh := by simp [State.softReset]
@[simp] theorem softReset_edges : (s.softReset).edges = s.edges := by simp [State.softReset]
@[simp] theorem softReset_nvm : (s.softReset).nvm = s.nvm := by simp [State.softReset]
@[simp] theorem softReset_freeCount : (s.softReset).freeCount = s.freeCount := by simp [State.softReset]

@[simp] theorem ignoreRest_pending : (s.ignoreRest).pending = s.pending := rfl
@[simp] theorem ignoreRest_trackTime : (s.ignoreRest).trackTime = s.trackTime := rfl
@[simp] theorem ignoreRest_inReset : (s.ignoreRest).inReset = s.inReset := rfl
@[simp] theorem ignoreRest_profileWp : (s.ignoreRest).profileWp = s.profileWp := rfl
@[simp] theorem ignoreRest_sckHigh : (s.ignoreRest).sckHigh = s.sckHigh := rfl
@[simp] theorem ignoreRest_edges : (s.ignoreRest).edges = s.edges := rfl
@[simp] theorem ignoreRest_linkA : (s.ignoreRest).linkA = s.linkA := rfl
@[simp] theorem ignoreRest_linkB : (s.ignoreRest).linkB = s.linkB := rfl
@[simp] theorem ignoreRest_gun : (s.ignoreRest).gun = s.gun := rfl
@[simp] theorem ignoreRest_heat : (s.ignoreRest).heat = s.heat := rfl
@[simp] theorem ignoreRest_lanes : (s.ignoreRest).lanes = s.lanes := rfl
@[simp] theorem ignoreRest_bibIndex : (s.ignoreRest).bibIndex = s.bibIndex := rfl
@[simp] theorem ignoreRest_report : (s.ignoreRest).report = s.report := rfl
@[simp] theorem ignoreRest_notices : (s.ignoreRest).notices = s.notices := rfl
@[simp] theorem ignoreRest_settings : (s.ignoreRest).settings = s.settings := rfl
@[simp] theorem ignoreRest_profile : (s.ignoreRest).profile = s.profile := rfl
@[simp] theorem ignoreRest_nvm : (s.ignoreRest).nvm = s.nvm := rfl
@[simp] theorem ignoreRest_freeCount : (s.ignoreRest).freeCount = s.freeCount := rfl

@[simp] theorem selectRise_pending : (s.selectRise).pending = s.pending := by unfold State.selectRise; (repeat' split) <;> simp
@[simp] theorem selectRise_trackTime : (s.selectRise).trackTime = s.trackTime := by unfold State.selectRise; (repeat' split) <;> simp
@[simp] theorem selectRise_inReset : (s.selectRise).inReset = s.inReset := by unfold State.selectRise; (repeat' split) <;> simp
@[simp] theorem selectRise_profileWp : (s.selectRise).profileWp = s.profileWp := by unfold State.selectRise; (repeat' split) <;> simp
@[simp] theorem selectRise_sckHigh : (s.selectRise).sckHigh = s.sckHigh := by unfold State.selectRise; (repeat' split) <;> simp
@[simp] theorem selectRise_edges : (s.selectRise).edges = s.edges := by unfold State.selectRise; (repeat' split) <;> simp
@[simp] theorem selectRise_nvm : (s.selectRise).nvm = s.nvm := by unfold State.selectRise; (repeat' split) <;> simp
@[simp] theorem selectRise_freeCount : (s.selectRise).freeCount = s.freeCount := by unfold State.selectRise; (repeat' split) <;> simp

/-! ### How a command is taken -/

/-- A port command taken while the port collects (R176). -/
theorem receive_taken {i : Instr} {k : Byte} {owner : State → Owned} (hk : i.code = some k) (hc : s.collecting = true) :
    s.receive i owner = .next (State.answered k i.argumentBytes.length (owner s)) := by
  simp [State.receive, hk, hc]

/-- A port command that reaches no owner (R174, R175). -/
theorem receive_ignored {i : Instr} {owner : State → Owned} (hc : s.collecting = false) : s.receive i owner = .next s := by
  unfold State.receive
  split <;> simp [hc]

/-- What taking a port command can do: nothing, or the owner's effect with the port's answer. -/
theorem receive_cases {s t : State} {i : Instr} {owner : State → Owned} (h : s.receive i owner = .next t) :
    t = s ∨ ∃ k, i.code = some k ∧ s.collecting = true ∧ t = State.answered k i.argumentBytes.length (owner s) := by
  unfold State.receive at h
  split at h
  · exact .inl (by injection h with h; exact h.symm)
  · next k hk =>
    split at h
    · next hc => exact .inr ⟨k, hk, hc, by injection h with h; exact h.symm⟩
    · exact .inl (by injection h with h; exact h.symm)

/-- While the port collects, no full reset lasts and the phase is Collecting (R174, R185). -/
theorem collecting_iff : s.collecting = true ↔ s.inReset = false ∧ s.port.phase = .collecting := by
  simp [State.collecting]

@[simp] theorem answered_port (k : Byte) (n : Nat) (o : Owned) :
    (State.answered k n o).port = o.1.port.answering k n o.2 := by
  simp [State.answered]

@[simp] theorem answered_notices (k : Byte) (n : Nat) (o : Owned) :
    (State.answered k n o).notices = (o.1.raiseIf o.2.result.refusal .commandError).notices := rfl

@[simp] theorem refuse_fst (r : ResultCode) : (s.refuse r).1 = s := rfl
@[simp] theorem refuse_snd (r : ResultCode) : (s.refuse r).2 = Answer.just r := rfl
@[simp] theorem succeed_fst : s.succeed.1 = s := rfl
@[simp] theorem succeed_snd : s.succeed.2 = Answer.ok := rfl
@[simp] theorem answerRead_fst (c : List Byte) : (s.answerRead c).1 = s := rfl
@[simp] theorem answerRead_snd (c : List Byte) : (s.answerRead c).2 = Answer.read c := rfl

/-! ### What a step can be -/

/-- An event of the port that an edge at its pins can be: a row of a transaction, or a port command (R174, R176). -/
def PortEvent (i : Instr) : Prop :=
  i.code.isSome = true ∨ i = .transactionStart ∨ i = .transactionEnd ∨ i = .transactionDiscard ∨
    (∃ k, i = .unknownCommandCode k) ∨ i = .softResetAction .resultByteEnd ∨ i = .streamRecordCopy

/-- An edge does what the state's own rows do, or moves the port and the pins alone. -/
def EdgeEffect (s t : State) : Prop :=
  (∃ p sck wp, t = { s with port := p, sckHigh := sck, profileWp := wp }) ∨
    ∃ i p sck, PortEvent i ∧ p.softArmed = s.port.softArmed ∧ exec i { s with port := p, sckHigh := sck } = .next t

/-- One row of a decoder: a command that has a code, or a later row. -/
theorem decodeRow_code {p : Prop} [Decidable p] {i j : Instr} {o : Option Instr} (hi : i.code.isSome = true)
    (ho : o = some j → j.code.isSome = true) (h : (if p then some i else o) = some j) : j.code.isSome = true := by
  by_cases hp : p
  · rw [if_pos hp] at h
    exact Option.some.inj h ▸ hi
  · rw [if_neg hp] at h
    exact ho h

/-- A decoded command is a port command. -/
theorem decodeCommand_code {wp : Bool} {bytes : List Byte} {i : Instr} (h : decodeCommand wp bytes = some i) :
    i.code.isSome = true := by
  rcases bytes with _ | ⟨a, _ | ⟨b, _ | ⟨c, _ | ⟨d, _ | ⟨e, l⟩⟩⟩⟩⟩ <;> revert h <;>
    (repeat' refine decodeRow_code rfl ?_) <;> (intro h; cases h)

theorem byteReceived_effect {t : State} (h : s.byteReceived = .next t) :
    (∃ p, t = s.withPort p) ∨ ∃ i, PortEvent i ∧ exec i s = .next t := by
  unfold State.byteReceived at h
  split at h
  · next i hi => exact .inr ⟨i, .inl (decodeCommand_code hi), h⟩
  · split at h
    · exact .inl ⟨s.port, by cases h; rfl⟩
    · next code _ _ =>
      split at h
      · exact .inl ⟨_, by cases h; rfl⟩
      · exact .inr ⟨_, .inr (.inr (.inr (.inr (.inl ⟨code, rfl⟩)))), h⟩

theorem byteBegins_effect {r : Response} {k : Nat} {t : State} (h : s.byteBegins r k = .next t) :
    (∃ p, t = s.withPort p) ∨ ∃ i, PortEvent i ∧ exec i s = .next t := by
  unfold State.byteBegins at h
  split at h
  · exact .inr ⟨_, .inr (.inr (.inr (.inr (.inr (.inl rfl))))), h⟩
  · split at h
    · exact .inl ⟨_, by cases h; rfl⟩
    · split at h
      · exact .inr ⟨_, .inr (.inr (.inr (.inr (.inr (.inr rfl))))), h⟩
      · exact .inl ⟨s.port, by cases h; rfl⟩

/-- What an edge at a pin can do (R174, R175). -/
theorem takeEdge_effect {e : PinEdge} {t : State} (h : s.takeEdge e = .next t) : EdgeEffect s t := by
  cases e <;> simp only [State.takeEdge] at h
  case selectFall => exact .inr ⟨_, s.port, s.sckHigh, .inr (.inl rfl), rfl, h⟩
  case selectRise =>
    split at h
    · exact .inr ⟨_, s.port, s.sckHigh, .inr (.inr (.inr (.inl rfl))), rfl, h⟩
    · exact .inr ⟨_, s.port, s.sckHigh, .inr (.inr (.inl rfl)), rfl, h⟩
  case profileWp w => exact .inl ⟨s.port, s.sckHigh, w, by cases h; rfl⟩
  case sckRise b =>
    split at h
    · exact .inl ⟨s.port, s.sckHigh, s.profileWp, by cases h; rfl⟩
    · unfold State.sckRises at h
      split at h
      · dsimp only at h
        split at h
        · exact .inl ⟨_, true, s.profileWp, by cases h; rfl⟩
        · rcases byteReceived_effect _ h with ⟨p, rfl⟩ | ⟨i, hi, h⟩
          · exact .inl ⟨p, true, s.profileWp, rfl⟩
          · exact .inr ⟨i, s.port.sample b _ _, true, hi, rfl, h⟩
      · exact .inl ⟨s.port, true, s.profileWp, by cases h; rfl⟩
  case sckFall =>
    split at h
    · unfold State.sckFalls at h
      split at h
      · rcases byteBegins_effect _ h with ⟨p, rfl⟩ | ⟨i, hi, h⟩
        · exact .inl ⟨p, false, s.profileWp, rfl⟩
        · exact .inr ⟨i, s.port, false, hi, rfl, h⟩
      · exact .inl ⟨s.port, false, s.profileWp, by cases h; rfl⟩
    · exact .inl ⟨s.port, s.sckHigh, s.profileWp, by cases h; rfl⟩

/-- A step takes the front command, or on an empty queue a due event, or else the edge that waits at the pins, or else one unit
passes (log 1, log 2, log 27). -/
theorem step_cases {s t : State} (h : step s = .next t) :
    (∃ c rest, s.pending = c :: rest ∧ exec c { s with pending := rest } = .next t) ∨
      (s.pending = [] ∧ ∃ e, s.dueEvent = some e ∧ exec e s = .next t) ∨
      (s.pending = [] ∧ s.dueEvent = none ∧
        ∃ e rest, s.edges = e :: rest ∧ State.takeEdge { s with edges := rest } e = .next t) ∨
      (s.pending = [] ∧ s.dueEvent = none ∧ s.edges = [] ∧ t = s.passUnit) := by
  unfold step at h
  split at h
  · next c rest hp => exact .inl ⟨c, rest, hp, h⟩
  · next hp =>
    split at h
    · next e he => exact .inr (.inl ⟨hp, e, he, h⟩)
    · next he =>
      split at h
      · next e rest hw => exact .inr (.inr (.inl ⟨hp, he, e, rest, hw, h⟩))
      · next hw => exact .inr (.inr (.inr ⟨hp, he, hw, by injection h with h; exact h.symm⟩))

/-- A predicate that reads neither the queues nor the port and its pins nor track time is kept by every step when every command
keeps it. -/
theorem step_keeps {P : State → Prop}
    (hq : ∀ s rest edges port sck wp, P s →
      P { s with pending := rest, edges := edges, port := port, sckHigh := sck, profileWp := wp })
    (ht : ∀ s now, P s → P { s with trackTime := now }) (he : ∀ i s t, P s → exec i s = .next t → P t) {s t : State}
    (hs : P s) (h : step s = .next t) : P t := by
  rcases step_cases h with ⟨c, rest, _, h⟩ | ⟨_, e, _, h⟩ | ⟨_, _, e, rest, _, h⟩ | ⟨_, _, _, rfl⟩
  · exact he c _ t (hq s rest s.edges s.port s.sckHigh s.profileWp hs) h
  · exact he e s t hs h
  · rcases takeEdge_effect _ h with ⟨p, sck, wp, rfl⟩ | ⟨i, p, sck, _, _, h⟩
    · exact hq s s.pending rest p sck wp hs
    · exact he i _ t (hq s s.pending rest p sck s.profileWp hs) h
  · unfold State.passUnit
    split
    · exact hs
    · exact ht s _ hs

/-! ### The rise of select -/

/-- What the rise of select can do (R178, R179, R184). -/
theorem selectRise_cases :
    s.selectRise = s ∨ s.selectRise = s.discard ∨ s.selectRise = s.withPort s.port.deselect ∨
      (s.port.softArmed = true ∧ s.selectRise = s.softReset.withPort s.softReset.port.deselect) := by
  unfold State.selectRise
  split
  · exact .inl rfl
  · split
    · exact .inl rfl
    · exact .inr (.inl rfl)
    · exact .inr (.inl rfl)
    · split
      · next h => exact .inr (.inr (.inr ⟨h, rfl⟩))
      · exact .inr (.inr (.inl rfl))

/-! ### The resets -/

@[simp] theorem softReset_lanes : s.softReset.lanes = Vector.replicate 10 Lane.cleared := by
  apply Vector.ext
  intro i h
  simp [State.softReset, State.softResetBlocks, Lane.settingsChange, Lane.cleared]
@[simp] theorem softReset_heat : s.softReset.heat = Heat.cleared := by simp [State.softReset, State.softResetBlocks]
@[simp] theorem softReset_bibIndex : s.softReset.bibIndex = [] := by simp [State.softReset, State.softResetBlocks]
@[simp] theorem softReset_report : s.softReset.report = none := by simp [State.softReset, State.softResetBlocks]
@[simp] theorem softReset_gun : s.softReset.gun = { s.gun with permitOut := false } := by
  simp [State.softReset, State.softResetBlocks]
@[simp] theorem softReset_settings : s.softReset.settings = s.loadedSettings := by
  simp [State.softReset, State.softResetBlocks, State.loadedSettings]
@[simp] theorem softReset_profile : s.softReset.profile = s.loadedProfile := by
  simp [State.softReset, State.softResetBlocks, State.loadedProfile]
@[simp] theorem softReset_link (l : LinkId) :
    s.softReset.link l = (s.link l).settingsChange s.settings s.loadedSettings l := by
  cases l <;> simp [State.softReset, State.softResetBlocks, State.link, State.loadedSettings]
@[simp] theorem softReset_port : s.softReset.port = { s.port with softArmed := false, latch := false } := by
  simp [State.softReset, State.softResetBlocks]

/-! ### The heat's events -/

@[simp] theorem endAttempt_getElem (i : Nat) (h : i < 10) :
    s.endAttempt.lanes[i] = if s.lanes[i].eligible then s.lanes[i].attemptEnded else s.lanes[i] := by
  simp [State.endAttempt]

@[simp] theorem judge_getElem (i : Nat) (h : i < 10) : s.judge.lanes[i] = s.judgeLane ⟨i, h⟩ s.lanes[i] := by
  simp [State.judge]
@[simp] theorem judge_heat : s.judge.heat = { s.heat with warning := s.warningAfter } := rfl
@[simp] theorem judge_report : s.judge.report = some s.closeReport := rfl

@[simp] theorem beginAttempt_getElem (i : Nat) (h : i < 10) :
    s.beginAttempt.lanes[i] = (s.lanes[i].attemptCleared).changeEntry Entry.finalize := by
  simp [State.beginAttempt]
@[simp] theorem beginAttempt_heat :
    s.beginAttempt.heat =
      { s.heat with
        state := .marks, attempt := s.heat.attempt + 1, gunStamp := none, issued := none, closeTime := none,
        deadlineTime := none, warning := s.heat.warning.map fun w => { w with final := true } } := rfl

@[simp] theorem setField_getElem (i : Nat) (h : i < 10) :
    s.setField.lanes[i] = if s.lanes[i].eligible then s.lanes[i].attemptSet else s.lanes[i] := by
  simp [State.setField]
@[simp] theorem setField_heat : s.setField.heat = { s.heat with state := .set } := by simp [State.setField]

@[simp] theorem standField_heat : s.standField.heat = { s.heat with state := .review } := by simp [State.standField]
@[simp] theorem standField_report : s.standField.report = some s.endAttempt.standUpReport := by
  simp [State.standField, State.judgeStandUp]
@[simp] theorem standField_gun : s.standField.gun = { s.gun with permitOut := false } := by
  simp only [State.standField, settlePermit_gun]
  rw [permitConditions_outside (by simp)]
  simp

/-- A lane after a stand-up: its attempt ends, and a lane judged is given NOT_STARTED (R33, R146). -/
@[simp] theorem standField_getElem (i : Nat) (h : i < 10) :
    s.standField.lanes[i] =
      if s.lanes[i].eligible then
        s.lanes[i].attemptEnded.changeEntry fun e => { e with result := some ⟨.notStarted, false⟩ }
      else s.lanes[i] := by
  have he : s.lanes[i].attemptEnded.eligible = s.lanes[i].eligible := rfl
  simp only [State.standField, State.judgeStandUp, settlePermit_lanes, raise_lanes, withHeat_lanes, withReport_lanes,
    mapLanes_getElem, endAttempt_getElem]
  by_cases hl : s.lanes[i].eligible = true
  · simp only [hl, he, if_true]
  · simp [hl]

/-- The heat record after a close: the timers, the warning and the state that the outcome gives (R44, R45, R46). -/
theorem closeAttempt_heat :
    s.closeAttempt.heat =
      { s.heat with
        closeTime := none
        warning := (s.withHeat { s.heat with closeTime := none }).endAttempt.warningAfter
        state :=
          if (s.withHeat { s.heat with closeTime := none }).endAttempt.outcome = .clean then
            if timerDue s.heat.deadlineTime s.trackTime then .done else .running
          else .review
        deadlineTime :=
          if (s.withHeat { s.heat with closeTime := none }).endAttempt.outcome = .clean then
            if timerDue s.heat.deadlineTime s.trackTime then none else s.heat.deadlineTime
          else none } := by
  simp only [State.closeAttempt, State.leaveWatch]
  split
  · by_cases h : timerDue s.heat.deadlineTime s.trackTime = true <;> simp [h, State.passDeadline]
  · simp

@[simp] theorem closeAttempt_lanes :
    s.closeAttempt.lanes = (s.withHeat { s.heat with closeTime := none }).endAttempt.judge.lanes := by
  simp only [State.closeAttempt]
  split <;> simp

@[simp] theorem closeAttempt_report :
    s.closeAttempt.report = some (s.withHeat { s.heat with closeTime := none }).endAttempt.closeReport := by
  simp only [State.closeAttempt]
  split <;> simp

/-- A frame's delivery gives each lane its sample (R61). -/
@[simp] theorem deliver_getElem (l : LinkId) (f : FrameInProgress) (w : Vector (BitVec 40) 6) (i : Nat) (h : i < 10) :
    (s.deliver l f w).lanes[i] =
      (sampleDelivery s l f w ⟨i, h⟩ s.lanes[i]).1 := by
  simp [State.deliver]

@[simp] theorem loseLink_getElem (l : LinkId) (i : Nat) (h : i < 10) :
    (s.loseLink l).lanes[i] = (lossIndication s.settings s.heat.state l ⟨i, h⟩ s.lanes[i]).1 := by
  simp [State.loseLink]

@[simp] theorem startAttempt_getElem (g : Stamp) (i : Nat) (h : i < 10) :
    (s.startAttempt g).lanes[i] = (gunIndication s.settings g ⟨i, h⟩ s.lanes[i]).1 := by
  simp [State.startAttempt]

end Sys2Proof.Laws
end

