-- ==== Sys2Proof/Laws/Effects.lean ====
section
/-! SUPPORT. What a command can do to the records of the part, said once: every command's next state is one of the effects
below, up to the port, the notices, the non-volatile profile and the queue. -/

namespace Sys2Proof.Laws

open Sys2Proof.Machine

/-- `t` agrees with `u` on track time, the links, the gun, the heat, the lanes, the index, the report, the settings and the
profile state. -/
def SameRecords (u t : State) : Prop :=
  ∃ pending edges inReset wp sck port notices nvm free,
    t = { u with
      pending := pending, edges := edges, inReset := inReset, profileWp := wp, sckHigh := sck, port := port,
      notices := notices, nvm := nvm, freeCount := free }

theorem SameRecords.refl (u : State) : SameRecords u u := ⟨_, _, _, _, _, _, _, _, _, rfl⟩

/-- Two states that agree on the ten fields have the same records. -/
theorem SameRecords.of {u t : State} (h0 : t.trackTime = u.trackTime) (h1 : t.linkA = u.linkA) (h2 : t.linkB = u.linkB)
    (h3 : t.gun = u.gun) (h4 : t.heat = u.heat) (h5 : t.lanes = u.lanes) (h6 : t.bibIndex = u.bibIndex)
    (h7 : t.report = u.report) (h8 : t.settings = u.settings) (h9 : t.profile = u.profile) : SameRecords u t := by
  refine ⟨t.pending, t.edges, t.inReset, t.profileWp, t.sckHigh, t.port, t.notices, t.nvm, t.freeCount, ?_⟩
  obtain ⟨⟩ := t
  simp only at *
  subst_vars
  rfl

theorem SameRecords.answered (k : Byte) (n : Nat) (o : Owned) : SameRecords o.1 (State.answered k n o) :=
  .of (by simp) (by simp) (by simp) (by simp) (by simp) (by simp) (by simp) (by simp) (by simp) (by simp)

theorem SameRecords.trans {u v t : State} (h : SameRecords u v) (k : SameRecords v t) : SameRecords u t := by
  obtain ⟨_, _, _, _, _, _, _, _, _, rfl⟩ := h
  obtain ⟨_, _, _, _, _, _, _, _, _, rfl⟩ := k
  exact ⟨_, _, _, _, _, _, _, _, _, rfl⟩

/-- The effects that commands have on the records, each with what its rule tests. -/
inductive RecordEffect (s : State) : State → Prop where
  | none : RecordEffect s s
  | softReset (h : s.port.softArmed = true) : RecordEffect s s.softReset
  | fullReset : RecordEffect s s.fullReset
  | writeSetting (k : Key) (v : Nat) (hw : writableIn k s.heat.state = true) (hs : s.profile.isSaving = false)
      (hr : s.settings.writeRefused k v = false) : RecordEffect s (s.changeSettings (s.settings.written k v))
  | saveProfile (hi : s.heat.state = .idle) :
      RecordEffect s { s with profile := .saving (imageOf s.settings) s.trackTime }
  | saveComplete (image : Image) (since : Stamp) (h : s.profile = .saving image since) : RecordEffect s { s with profile := .ready }
  | loadProfile (hi : s.heat.state = .idle) (hs : s.profile.isSaving = false) : RecordEffect s s.loadProfile
  | openHeat (n : BitVec 16) (p : Policy) (hi : s.heat.state = .idle) (hs : s.profile.isSaving = false) (hn : n ≠ 0) :
      RecordEffect s ((s.withHeat { s.heat with
        state := .roster, attempt := 0, id := some ⟨n.toNat, p⟩, gunStamp := none, issued := none,
        warning := none }).withReport none)
  | closeHeat (h : closable s.heat.state = true) : RecordEffect s s.retire
  | enterLane (i : LaneNo) (b : Nat) (hb : 1 ≤ b ∧ b ≤ 9999) (hr : s.heat.state = .roster) (hc : s.settings.canEnter i = true)
      (hn : indexFind b s.bibIndex = none) (hv : s.lanes[i].entry = none) : RecordEffect s (s.enter i b)
  | vacateLane (i : LaneNo) (hr : s.heat.state = .roster) : RecordEffect s (s.vacateLane i)
  | withdrawLane (i : LaneNo) (hh : s.heat.state ≠ .idle ∧ s.heat.state ≠ .set ∧ s.heat.state ≠ .watch)
      (he : s.lanes[i].eligible = true) : RecordEffect s (s.changeLane i Lane.withdraw)
  | callMarks (hh : s.heat.state = .roster ∨ s.heat.state = .review) (he : s.anyEligible = true) (ha : s.heat.attempt < 15) :
      RecordEffect s s.beginAttempt
  | callSet (hh : s.heat.state = .marks) (he : s.anyEligible = true) : RecordEffect s s.setField
  | standUp (hh : s.heat.state = .marks ∨ s.heat.state = .set) : RecordEffect s s.standField
  | starterRecall (hh : s.heat.state = .watch ∨ s.heat.state = .running) : RecordEffect s s.starterRecall
  | imposeCharge (i : LaneNo) (x : Effect) (e : Entry) (hh : reviewState s.heat.state = true)
      (he : s.lanes[i].entry = some e) (hw : e.standing ≠ .withdrawn) (hd : e.standing ≠ .disqualified)
      (hx : x = .caution → e.holds .caution = false) :
      RecordEffect s (s.changeLane i (Lane.changeEntry (Entry.charge s.heat.attempt x .referee)))
  | rescindCharge (i : LaneNo) (e : Entry) (c : Charge) (hh : reviewState s.heat.state = true)
      (he : s.lanes[i].entry = some e) (hc : e.charges.getLast? = some c) (hf : c.final = false) :
      RecordEffect s (s.changeLane i (Lane.changeEntry Entry.rescind))
  | rescindFieldWarning (w : FieldWarning) (hh : reviewState s.heat.state = true) (hw : s.heat.warning = some w)
      (hf : w.final = false) : RecordEffect s (s.withHeat { s.heat with warning := none })
  | clearCounters (l : LinkId) :
      RecordEffect s (s.withLink l { s.link l with checkFailures := 0, seqFaults := 0, losses := 0 })
  | gunEdge (b : Bool) (h : b = true → s.gun.qualification = none ∧ s.gun.lockoutEnd = none) (hl : s.gun.lineLow = false) :
      RecordEffect s (s.withGun { s.gun with
        lineLow := true
        qualification := if b then some ⟨s.trackTime, s.settings.gunQualify⟩ else s.gun.qualification })
  | gunRelease : RecordEffect s (s.withGun { s.gun with lineLow := false, qualification := Option.none })
  | lockoutEnd : RecordEffect s (s.withGun { s.gun with lockoutEnd := Option.none })
  | gunAcceptance (q : Qualification) (h : s.gun.qualification = some q) : RecordEffect s (s.acceptGun q)
  | closeExpiry (h : s.heat.state = .watch) : RecordEffect s s.closeAttempt
  | deadlineExpiry (h : s.heat.state = .running) : RecordEffect s s.passDeadline
  | pulseEnd : RecordEffect s (s.withHeat { s.heat with pulseEnd := Option.none })
  | wordFound (l : LinkId) (p : Stamp) (h : (s.link l).align = .search) :
      RecordEffect s (s.withLink l { s.link l with align := .confirm, framePos := some p, confirmCount := 0 })
  | confirm (l : LinkId) (p : Stamp) (w : BitVec 16) (h : (s.link l).align = .confirm) (hf : (s.link l).frame = Option.none) :
      RecordEffect s (s.withLink l ((s.link l).confirmAt s.settings l p w)).settlePermit
  | frameBegins (l : LinkId) (p : Stamp) (good : Bool) (n : Nat) (h : (s.link l).align = .locked)
      (hn : n = (s.link l).erroredCount ∨ n ≤ 2) :
      RecordEffect s (s.withLink l ((s.link l).frameBegins s.settings l p good n))
  | linkLost (l : LinkId) (h : (s.link l).align = .locked) : RecordEffect s (s.loseLink l)
  | frameArrival (l : LinkId) (f : FrameInProgress) (w : Vector (BitVec 40) 6) (h : (s.link l).frame = some f) :
      RecordEffect s (s.deliver l f w)
  | lineTransition (l : LinkId) (t : Stamp) (b : Bool) :
      RecordEffect s (s.withLink l { s.link l with lineHigh := b, lastTransition := t })

/-- The state has one of the effects, up to what the records leave out. -/
def HasEffect (s t : State) : Prop := ∃ u, RecordEffect s u ∧ SameRecords u t

theorem HasEffect.nothing {s t : State} (h : SameRecords s t) : HasEffect s t := ⟨s, .none, h⟩

/-- A taken command has its owner's effect. -/
theorem HasEffect.receive {s t : State} {i : Instr} {owner : State → Owned} (h : s.receive i owner = .next t)
    (ho : HasEffect s (owner s).1) : HasEffect s t := by
  rcases receive_cases h with rfl | ⟨k, _, _, rfl⟩
  · exact .nothing (.refl _)
  · obtain ⟨u, hu, hs⟩ := ho
    exact ⟨u, hu, hs.trans (.answered _ _ _)⟩

theorem HasEffect.exact {s u : State} (h : RecordEffect s u) : HasEffect s u := ⟨u, h, .refl u⟩

/-- Only the records left out differ. -/
theorem SameRecords.notices (u : State) (n : Notices) : SameRecords u (u.withNotices n) := ⟨_, _, _, _, _, _, _, _, _, rfl⟩
theorem SameRecords.port (u : State) (p : Port) : SameRecords u (u.withPort p) := ⟨_, _, _, _, _, _, _, _, _, rfl⟩

theorem selectRise_effect (s : State) : HasEffect s s.selectRise := by
  rcases selectRise_cases s with h | h | h | ⟨ha, h⟩ <;> rw [h]
  · exact .nothing (.refl _)
  · exact .nothing (.of (by simp) (by simp) (by simp) (by simp) (by simp) (by simp) (by simp) (by simp) (by simp) (by simp))
  · exact .nothing (.port _ _)
  · exact ⟨_, .softReset ha, .port _ _⟩

/-- The notice commands and the reads change no record. -/
theorem ownTakeNotice_effect (s : State) : HasEffect s (ownTakeNotice s).1 := by
  unfold ownTakeNotice
  dsimp only
  split
  · exact .nothing (.refl _)
  · exact .nothing ((SameRecords.notices _ _).trans (.notices _ _))

theorem ownClearNotice_effect (x : Byte) (s : State) : HasEffect s (ownClearNotice x s).1 := by
  unfold ownClearNotice
  split
  · exact .nothing (.refl _)
  · split
    · exact .nothing (.refl _)
    · exact .nothing (.notices _ _)

theorem ownSetNoticeLevel_effect (x v : Byte) (s : State) : HasEffect s (ownSetNoticeLevel x v s).1 := by
  unfold ownSetNoticeLevel
  split
  · exact .nothing (.refl _)
  · exact .nothing (.notices _ _)

theorem ownSoftReset_effect (s : State) : HasEffect s (ownSoftReset s).1 := by
  unfold ownSoftReset
  split
  · exact .nothing (.refl _)
  · split
    · exact .nothing (.refl _)
    · exact .nothing (.port _ _)

theorem ownWriteSetting_effect (x : Byte) (v : BitVec 16) (s : State) : HasEffect s (ownWriteSetting x v s).1 := by
  unfold ownWriteSetting
  split
  · exact .nothing (.refl _)
  · next k _ =>
    split
    · exact .nothing (.refl _)
    · next hw =>
      split
      · exact .nothing (.refl _)
      · next hs =>
        split
        · exact .nothing (.refl _)
        · next hr => exact .exact (.writeSetting k v.toNat (by simpa using hw) (by simpa using hs) (by simpa using hr))

theorem ownSaveProfile_effect (wp : Bool) (s : State) : HasEffect s (ownSaveProfile wp s).1 := by
  unfold ownSaveProfile
  dsimp only
  have hw : SameRecords s { s with profileWp := wp } := ⟨_, _, _, _, _, _, _, _, _, rfl⟩
  split
  · exact .nothing hw
  · next hi =>
    split
    · exact .nothing hw
    · split
      · exact .nothing hw
      · exact ⟨_, .saveProfile (by simpa using hi), ⟨_, _, _, _, _, _, _, _, _, rfl⟩⟩

theorem ownLoadProfile_effect (s : State) : HasEffect s (ownLoadProfile s).1 := by
  unfold ownLoadProfile
  split
  · exact .nothing (.refl _)
  · next hi =>
    split
    · exact .nothing (.refl _)
    · next hs => exact .exact (.loadProfile (by simpa using hi) (by simpa using hs))

theorem ownOpenHeat_effect (n : BitVec 16) (p : Byte) (s : State) : HasEffect s (ownOpenHeat n p s).1 := by
  unfold ownOpenHeat
  split
  · exact .nothing (.refl _)
  · next hi =>
    split
    · exact .nothing (.refl _)
    · next hs =>
      split
      · exact .nothing (.refl _)
      · next p _ =>
        split
        · exact .nothing (.refl _)
        · next hn => exact .exact (.openHeat n p (by simpa using hi) (by simpa using hs) hn)

theorem ownCloseHeat_effect (s : State) : HasEffect s (ownCloseHeat s).1 := by
  unfold ownCloseHeat
  split
  · next h => exact .exact (.closeHeat h)
  · exact .nothing (.refl _)

/-- A bib argument taken lies in 1..9,999. -/
theorem parseBib_range {x : BitVec 16} {b : Nat} (h : parseBib x = some b) : 1 ≤ b ∧ b ≤ 9999 := by
  unfold parseBib at h
  split at h
  · next hb =>
    injection h with h
    exact h ▸ hb
  · contradiction

theorem ownEnterLane_effect (x : Byte) (y : BitVec 16) (s : State) : HasEffect s (ownEnterLane x y s).1 := by
  unfold ownEnterLane
  split
  · exact .nothing (.refl _)
  · next hr =>
    split
    · next i b _ hb =>
      split
      · exact .nothing (.refl _)
      · next hc =>
        split
        · exact .nothing (.refl _)
        · next hn =>
          split
          · exact .nothing (.refl _)
          · next hv =>
            exact .exact (.enterLane i b (parseBib_range hb) (by simpa using hr) (by simpa using hc) (by simpa using hn)
              (by simpa using hv))
    · exact .nothing (.refl _)

theorem ownVacateLane_effect (x : Byte) (s : State) : HasEffect s (ownVacateLane x s).1 := by
  unfold ownVacateLane
  split
  · exact .nothing (.refl _)
  · next hr =>
    split
    · exact .nothing (.refl _)
    · split
      · exact .nothing (.refl _)
      · exact .exact (.vacateLane _ (by simpa using hr))

theorem ownWithdrawLane_effect (x : Byte) (s : State) : HasEffect s (ownWithdrawLane x s).1 := by
  unfold ownWithdrawLane
  split
  · exact .nothing (.refl _)
  · next hh =>
    split
    · exact .nothing (.refl _)
    · split
      · exact .nothing (.refl _)
      · split
        · exact .nothing (.refl _)
        · next he => exact .exact (.withdrawLane _ (by simpa [not_or] using hh) (by simpa using he))

theorem ownCallMarks_effect (s : State) : HasEffect s (ownCallMarks s).1 := by
  unfold ownCallMarks
  split
  · exact .nothing (.refl _)
  · next hh =>
    split
    · exact .nothing (.refl _)
    · next he =>
      split
      · exact .nothing (.refl _)
      · next ha =>
        exact .exact (.callMarks (by by_cases h : s.heat.state = .roster <;> simp_all) (by simpa using he)
          (Nat.lt_of_not_le ha))

theorem ownCallSet_effect (s : State) : HasEffect s (ownCallSet s).1 := by
  unfold ownCallSet
  split
  · exact .nothing (.refl _)
  · next hh =>
    split
    · exact .nothing (.refl _)
    · next he => exact .exact (.callSet (by simpa using hh) (by simpa using he))

theorem ownStandUp_effect (s : State) : HasEffect s (ownStandUp s).1 := by
  unfold ownStandUp
  split
  · next h => exact .exact (.standUp h)
  · exact .nothing (.refl _)

theorem ownRecall_effect (s : State) : HasEffect s (ownRecall s).1 := by
  unfold ownRecall
  split
  · next h => exact .exact (.starterRecall (.inl h))
  · next h => exact .exact (.starterRecall (.inr h))
  · exact .nothing (.refl _)
  · exact .nothing (.refl _)

theorem ownImposeCharge_effect (x y : Byte) (s : State) : HasEffect s (ownImposeCharge x y s).1 := by
  unfold ownImposeCharge
  split
  · exact .nothing (.refl _)
  · next hh =>
    split
    · next i x _ _ =>
      split
      · exact .nothing (.refl _)
      · next e he =>
        split
        · exact .nothing (.refl _)
        · next hs =>
          split
          · exact .nothing (.refl _)
          · next hx =>
            refine .exact (.imposeCharge i x e (by simpa using hh) he (fun h => hs (.inl h)) (fun h => hs (.inr h)) ?_)
            intro h
            by_contra hc
            exact hx ⟨h, by simpa using hc⟩
    · exact .nothing (.refl _)

theorem ownRescindCharge_effect (x : Byte) (s : State) : HasEffect s (ownRescindCharge x s).1 := by
  unfold ownRescindCharge
  split
  · exact .nothing (.refl _)
  · next hh =>
    split
    · exact .nothing (.refl _)
    · next i _ =>
      split
      · exact .nothing (.refl _)
      · next e he =>
        split
        · exact .nothing (.refl _)
        · next c hc =>
          split
          · exact .nothing (.refl _)
          · next hf => exact .exact (.rescindCharge i e c (by simpa using hh) he hc (by simpa using hf))

theorem ownRescindFieldWarning_effect (s : State) : HasEffect s (ownRescindFieldWarning s).1 := by
  unfold ownRescindFieldWarning
  split
  · exact .nothing (.refl _)
  · next hh =>
    split
    · exact .nothing (.refl _)
    · next w hw =>
      split
      · exact .nothing (.refl _)
      · next hf => exact .exact (.rescindFieldWarning w (by simpa using hh) hw (by simpa using hf))

theorem ownReadLink_effect (x y : Byte) (s : State) : HasEffect s (ownReadLink x y s).1 := by
  unfold ownReadLink
  split
  · next l c _ _ =>
    dsimp only
    split
    · exact .exact (.clearCounters l)
    · exact .nothing (.refl _)
  · exact .nothing (.refl _)

/-- The reads that may be refused change nothing. -/
theorem ownReadSetting_effect (x : Byte) (s : State) : HasEffect s (ownReadSetting x s).1 := by
  unfold ownReadSetting; split <;> exact .nothing (.refl _)
theorem ownFindBib_effect (x : BitVec 16) (s : State) : HasEffect s (ownFindBib x s).1 := by
  unfold ownFindBib; split <;> [skip; split] <;> exact .nothing (.refl _)
theorem ownReadLane_effect (x : Byte) (s : State) : HasEffect s (ownReadLane x s).1 := by
  unfold ownReadLane; split <;> exact .nothing (.refl _)
theorem ownReadRoster_effect (x : Byte) (s : State) : HasEffect s (ownReadRoster x s).1 := by
  unfold ownReadRoster; split <;> exact .nothing (.refl _)
theorem ownReadAttempt_effect (s : State) : HasEffect s (ownReadAttempt s).1 := by
  unfold ownReadAttempt; split <;> exact .nothing (.refl _)

theorem execSoftResetAction_effect {m : ResetMoment} {s t : State} (h : execSoftResetAction m s = .next t) :
    HasEffect s t := by
  unfold execSoftResetAction at h
  split at h
  · cases h
    exact .nothing (.refl _)
  · next ha =>
    split at h <;> cases h
    · exact ⟨_, .softReset (by simp_all), .port _ _⟩
    · exact selectRise_effect s

theorem execProfileSaveComplete_effect {s t : State} (h : execProfileSaveComplete s = .next t) : HasEffect s t := by
  unfold execProfileSaveComplete at h
  split at h <;> cases h
  · next image since hp => exact ⟨_, .saveComplete image since hp, ⟨_, _, _, _, _, _, _, _, _, rfl⟩⟩
  · exact .nothing (.refl _)

theorem execStreamRecordCopy_effect {s t : State} (h : execStreamRecordCopy s = .next t) : HasEffect s t := by
  unfold execStreamRecordCopy at h
  split at h
  · cases h
    exact .nothing (.refl _)
  · split at h
    · cases h
      exact .nothing (.refl _)
    · split at h
      · cases h
        exact .nothing (.refl _)
      · cases h
        exact .nothing (.port _ _)

theorem execTransactionStart_effect {s t : State} (h : execTransactionStart s = .next t) : HasEffect s t := by
  unfold execTransactionStart at h
  split at h <;> cases h
  · exact .nothing (.port _ _)
  · exact .nothing (.refl _)

theorem execUnknownCommandCode_effect {k : Byte} {s t : State} (h : execUnknownCommandCode k s = .next t) :
    HasEffect s t := by
  unfold execUnknownCommandCode at h
  split at h <;> cases h
  · exact .nothing (.port _ _)
  · exact .nothing (.refl _)

theorem execGunEdge_effect {s t : State} (h : execGunEdge s = .next t) : HasEffect s t := by
  unfold execGunEdge at h
  split at h
  · cases h
    exact .nothing (.refl _)
  · next hl =>
    split at h <;> cases h
    · exact .exact (.gunEdge false (by simp) (by simpa using hl))
    · next hq => exact .exact (.gunEdge true (by simp_all) (by simpa using hl))

theorem execGunRelease_effect {s t : State} (h : execGunRelease s = .next t) : HasEffect s t := by
  unfold execGunRelease at h
  split at h
  · cases h
    exact .nothing (.refl _)
  · split at h <;> cases h
    · exact ⟨_, .gunRelease, .notices _ _⟩
    · next hq =>
      have : s.gun.qualification = none := by simpa using hq
      exact ⟨_, .gunRelease, by rw [← this]; exact .refl _⟩

theorem execGunAcceptance_effect {s t : State} (h : execGunAcceptance s = .next t) : HasEffect s t := by
  unfold execGunAcceptance at h
  split at h
  · cases h
    exact .nothing (.refl _)
  · next q hq =>
    split at h <;> cases h
    · exact .exact (.gunAcceptance q hq)
    · exact .nothing (.refl _)

theorem execLockoutEnd_effect {s t : State} (h : execLockoutEnd s = .next t) : HasEffect s t := by
  unfold execLockoutEnd at h
  split at h <;> cases h
  · exact .exact .lockoutEnd
  · exact .nothing (.refl _)

theorem execCloseExpiry_effect {s t : State} (h : execCloseExpiry s = .next t) : HasEffect s t := by
  unfold execCloseExpiry at h
  split at h <;> cases h
  · next hw => exact .exact (.closeExpiry hw.1)
  · exact .nothing (.refl _)

theorem execDeadlineExpiry_effect {s t : State} (h : execDeadlineExpiry s = .next t) : HasEffect s t := by
  unfold execDeadlineExpiry at h
  split at h <;> cases h
  · next hr => exact .exact (.deadlineExpiry hr.1)
  · exact .nothing (.refl _)

theorem execPulseEnd_effect {s t : State} (h : execPulseEnd s = .next t) : HasEffect s t := by
  unfold execPulseEnd at h
  split at h <;> cases h
  · exact .exact .pulseEnd
  · exact .nothing (.refl _)

theorem execSearchWordFound_effect {l : LinkId} {w : BitVec 16} {s t : State} (h : execSearchWordFound l w s = .next t) :
    HasEffect s t := by
  unfold execSearchWordFound at h
  split at h <;> cases h
  · next hc => exact .exact (.wordFound l _ (by simp_all))
  · exact .nothing (.refl _)

theorem lockedAt_effect (s : State) (l : LinkId) (p : Stamp) (q : Bool) (w : BitVec 16) (h : (s.link l).align = .locked) :
    HasEffect s (s.lockedAt l p q w) := by
  unfold State.lockedAt
  dsimp only
  split
  · exact .exact (.frameBegins l p false _ h (.inl rfl))
  · split
    · exact .exact (.frameBegins l p true 0 h (.inr (by omega)))
    · split
      · exact .exact (.frameBegins l p false _ h (.inr (by omega)))
      · exact .exact (.linkLost l h)

theorem execFramePosition_effect {l : LinkId} {q : Bool} {w : BitVec 16} {s t : State}
    (h : execFramePosition l q w s = .next t) : HasEffect s t := by
  unfold execFramePosition at h
  split at h
  · cases h
    exact .nothing (.refl _)
  · next p _ =>
    split at h
    · cases h
      exact .nothing (.refl _)
    · next hg =>
      split at h <;> cases h
      · next ha => exact .exact (.confirm l p w ha (by simp_all))
      · next ha => exact lockedAt_effect s l p q w ha
      · exact .nothing (.refl _)

theorem execLinkSilence_effect {l : LinkId} {s t : State} (h : execLinkSilence l s = .next t) : HasEffect s t := by
  unfold execLinkSilence at h
  split at h <;> cases h
  · next hs => exact .exact (.linkLost l (by simp_all [State.linkSilent]))
  · exact .nothing (.refl _)

theorem execFrameArrival_effect {l : LinkId} {w : Vector (BitVec 40) 6} {s t : State}
    (h : execFrameArrival l w s = .next t) : HasEffect s t := by
  unfold execFrameArrival at h
  split at h
  · cases h
    exact .nothing (.refl _)
  · next f hf =>
    split at h <;> cases h
    · exact .exact (.frameArrival l f w hf)
    · exact .nothing (.refl _)

theorem execLineTransition_effect {l : LinkId} {s t : State} (h : execLineTransition l s = .next t) : HasEffect s t := by
  unfold execLineTransition at h
  cases h
  exact .exact (.lineTransition l _ _)

theorem execFullResetEnd_effect {b : Bool} {s t : State} (h : execFullResetEnd b s = .next t) : HasEffect s t := by
  unfold execFullResetEnd at h
  split at h
  · dsimp only at h
    split at h <;> cases h <;> exact .nothing ⟨_, _, _, _, _, _, _, _, _, rfl⟩
  · cases h
    exact .nothing (.refl _)

/-- Every command has one of the effects on the records. -/
theorem exec_effect {i : Instr} {s t : State} (h : exec i s = .next t) : HasEffect s t := by
  cases i <;> simp only [exec] at h
  case readStatus => exact .receive h (.nothing (.refl _))
  case resetEnable => exact .receive h (.nothing (.refl _))
  case softReset => exact .receive h (ownSoftReset_effect s)
  case softResetAction => exact execSoftResetAction_effect h
  case fullReset => cases h; exact .exact .fullReset
  case takeNotice => exact .receive h (ownTakeNotice_effect s)
  case noticeDone => exact .receive h (.nothing (.notices _ _))
  case clearNotice => exact .receive h (ownClearNotice_effect _ s)
  case setNoticeLevel => exact .receive h (ownSetNoticeLevel_effect _ _ s)
  case readNotices => exact .receive h (.nothing (.refl _))
  case readSetting => exact .receive h (ownReadSetting_effect _ s)
  case writeSetting => exact .receive h (ownWriteSetting_effect _ _ s)
  case saveProfile => exact .receive h (ownSaveProfile_effect _ s)
  case profileSaveComplete => exact execProfileSaveComplete_effect h
  case loadProfile => exact .receive h (ownLoadProfile_effect s)
  case openHeat => exact .receive h (ownOpenHeat_effect _ _ s)
  case closeHeat => exact .receive h (ownCloseHeat_effect s)
  case enterLane => exact .receive h (ownEnterLane_effect _ _ s)
  case vacateLane => exact .receive h (ownVacateLane_effect _ s)
  case withdrawLane => exact .receive h (ownWithdrawLane_effect _ s)
  case findBib => exact .receive h (ownFindBib_effect _ s)
  case readLane => exact .receive h (ownReadLane_effect _ s)
  case readRoster => exact .receive h (ownReadRoster_effect _ s)
  case streamRecordCopy => exact execStreamRecordCopy_effect h
  case readHeat => exact .receive h (.nothing (.refl _))
  case readAttempt => exact .receive h (ownReadAttempt_effect s)
  case callMarks => exact .receive h (ownCallMarks_effect s)
  case callSet => exact .receive h (ownCallSet_effect s)
  case standUp => exact .receive h (ownStandUp_effect s)
  case imposeCharge => exact .receive h (ownImposeCharge_effect _ _ s)
  case rescindCharge => exact .receive h (ownRescindCharge_effect _ s)
  case rescindFieldWarning => exact .receive h (ownRescindFieldWarning_effect s)
  case readLink => exact .receive h (ownReadLink_effect _ _ s)
  case transactionStart => exact execTransactionStart_effect h
  case unknownCommandCode => exact execUnknownCommandCode_effect h
  case transactionEnd => cases h; exact selectRise_effect s
  case transactionDiscard => cases h; exact selectRise_effect s
  case gunEdge => exact execGunEdge_effect h
  case gunRelease => exact execGunRelease_effect h
  case gunAcceptance => exact execGunAcceptance_effect h
  case lockoutEnd => exact execLockoutEnd_effect h
  case closeExpiry => exact execCloseExpiry_effect h
  case deadlineExpiry => exact execDeadlineExpiry_effect h
  case pulseEnd => exact execPulseEnd_effect h
  case searchWordFound => exact execSearchWordFound_effect h
  case framePosition => exact execFramePosition_effect h
  case linkSilence => exact execLinkSilence_effect h
  case frameArrival => exact execFrameArrival_effect h
  case lineTransition => exact execLineTransition_effect h
  case fullResetEnd => exact execFullResetEnd_effect h
  exact .receive h (ownRecall_effect s)

/-- A law of the records that every effect keeps, and that track time does not enter, is kept by every step. -/
theorem step_keeps_law {P : State → Prop} (hc : ∀ u t, SameRecords u t → P u → P t) (ht : ∀ s now, P s → P { s with trackTime := now })
    (he : ∀ s u, P s → RecordEffect s u → P u) {s t : State} (hs : P s) (h : step s = .next t) : P t :=
  step_keeps (P := P) (fun s _ _ _ _ _ hp => hc s _ ⟨_, _, _, _, _, _, _, _, _, rfl⟩ hp) ht
    (fun _ s t hp hx => by
      obtain ⟨u, hu, hsame⟩ := exec_effect hx
      exact hc u t hsame (he s u hp hu))
    hs h

end Sys2Proof.Laws
end

