-- ==== Sys2Proof/Laws/Sensing.lean ====
section
/-! SUPPORT. What each operation of a lane sensing unit leaves unchanged, and what one sample can do. -/

namespace Sys2Proof.Laws

open Sys2Proof.Machine

variable (l : Lane)

/-! ### Frames: a field that an operation does not name -/

@[simp] theorem noteFresh_entry (x : Sample) : (l.noteFresh x).entry = l.entry := by unfold Lane.noteFresh; split <;> rfl
@[simp] theorem noteFresh_phase (x : Sample) : (l.noteFresh x).phase = l.phase := by unfold Lane.noteFresh; split <;> rfl
@[simp] theorem noteFresh_baseline (x : Sample) : (l.noteFresh x).baseline = l.baseline := by unfold Lane.noteFresh; split <;> rfl
@[simp] theorem noteFresh_onset (x : Sample) : (l.noteFresh x).onset = l.onset := by unfold Lane.noteFresh; split <;> rfl
@[simp] theorem noteFresh_rt (x : Sample) : (l.noteFresh x).rt = l.rt := by unfold Lane.noteFresh; split <;> rfl
@[simp] theorem noteFresh_block (x : Sample) : (l.noteFresh x).block = l.block := by unfold Lane.noteFresh; split <;> rfl
@[simp] theorem noteFresh_lastBlock (x : Sample) : (l.noteFresh x).lastBlock = l.lastBlock := by unfold Lane.noteFresh; split <;> rfl
@[simp] theorem noteFresh_settleCount (x : Sample) : (l.noteFresh x).settleCount = l.settleCount := by unfold Lane.noteFresh; split <;> rfl
@[simp] theorem noteFresh_heldCount (x : Sample) : (l.noteFresh x).heldCount = l.heldCount := by unfold Lane.noteFresh; split <;> rfl
@[simp] theorem noteFresh_runCount (x : Sample) : (l.noteFresh x).runCount = l.runCount := by unfold Lane.noteFresh; split <;> rfl
@[simp] theorem noteFresh_runStart (x : Sample) : (l.noteFresh x).runStart = l.runStart := by unfold Lane.noteFresh; split <;> rfl
@[simp] theorem noteFresh_predecessor (x : Sample) : (l.noteFresh x).predecessor = l.predecessor := by unfold Lane.noteFresh; split <;> rfl
@[simp] theorem noteFresh_lastJudged (x : Sample) : (l.noteFresh x).lastJudged = l.lastJudged := by unfold Lane.noteFresh; split <;> rfl

@[simp] theorem endDetection_entry : (l.endDetection).entry = l.entry := rfl
@[simp] theorem endDetection_phase : (l.endDetection).phase = l.phase := rfl
@[simp] theorem endDetection_baseline : (l.endDetection).baseline = l.baseline := rfl
@[simp] theorem endDetection_onset : (l.endDetection).onset = l.onset := rfl
@[simp] theorem endDetection_rt : (l.endDetection).rt = l.rt := rfl
@[simp] theorem endDetection_lastForce : (l.endDetection).lastForce = l.lastForce := rfl
@[simp] theorem endDetection_block : (l.endDetection).block = l.block := rfl
@[simp] theorem endDetection_lastBlock : (l.endDetection).lastBlock = l.lastBlock := rfl
@[simp] theorem endDetection_settleCount : (l.endDetection).settleCount = l.settleCount := rfl
@[simp] theorem endDetection_heldCount : (l.endDetection).heldCount = l.heldCount := rfl

@[simp] theorem dropBaseline_entry : (l.dropBaseline).entry = l.entry := rfl
@[simp] theorem dropBaseline_phase : (l.dropBaseline).phase = l.phase := rfl
@[simp] theorem dropBaseline_onset : (l.dropBaseline).onset = l.onset := rfl
@[simp] theorem dropBaseline_rt : (l.dropBaseline).rt = l.rt := rfl
@[simp] theorem dropBaseline_lastForce : (l.dropBaseline).lastForce = l.lastForce := rfl
@[simp] theorem dropBaseline_block : (l.dropBaseline).block = l.block := rfl
@[simp] theorem dropBaseline_lastBlock : (l.dropBaseline).lastBlock = l.lastBlock := rfl
@[simp] theorem dropBaseline_settleCount : (l.dropBaseline).settleCount = l.settleCount := rfl
@[simp] theorem dropBaseline_heldCount : (l.dropBaseline).heldCount = l.heldCount := rfl
@[simp] theorem dropBaseline_runCount : (l.dropBaseline).runCount = l.runCount := rfl
@[simp] theorem dropBaseline_runStart : (l.dropBaseline).runStart = l.runStart := rfl
@[simp] theorem dropBaseline_predecessor : (l.dropBaseline).predecessor = l.predecessor := rfl
@[simp] theorem dropBaseline_lastJudged : (l.dropBaseline).lastJudged = l.lastJudged := rfl

@[simp] theorem resettle_entry : (l.resettle).entry = l.entry := rfl
@[simp] theorem resettle_onset : (l.resettle).onset = l.onset := rfl
@[simp] theorem resettle_rt : (l.resettle).rt = l.rt := rfl
@[simp] theorem resettle_lastForce : (l.resettle).lastForce = l.lastForce := rfl
@[simp] theorem resettle_block : (l.resettle).block = l.block := rfl
@[simp] theorem resettle_lastBlock : (l.resettle).lastBlock = l.lastBlock := rfl
@[simp] theorem resettle_heldCount : (l.resettle).heldCount = l.heldCount := rfl

@[simp] theorem judgeSettling_entry (c : Settings) (b : Bool) (m : Nat) : (l.judgeSettling c b m).entry = l.entry := by unfold Lane.judgeSettling; (repeat' split) <;> rfl
@[simp] theorem judgeSettling_onset (c : Settings) (b : Bool) (m : Nat) : (l.judgeSettling c b m).onset = l.onset := by unfold Lane.judgeSettling; (repeat' split) <;> rfl
@[simp] theorem judgeSettling_rt (c : Settings) (b : Bool) (m : Nat) : (l.judgeSettling c b m).rt = l.rt := by unfold Lane.judgeSettling; (repeat' split) <;> rfl
@[simp] theorem judgeSettling_lastForce (c : Settings) (b : Bool) (m : Nat) : (l.judgeSettling c b m).lastForce = l.lastForce := by unfold Lane.judgeSettling; (repeat' split) <;> rfl
@[simp] theorem judgeSettling_block (c : Settings) (b : Bool) (m : Nat) : (l.judgeSettling c b m).block = l.block := by unfold Lane.judgeSettling; (repeat' split) <;> rfl
@[simp] theorem judgeSettling_lastBlock (c : Settings) (b : Bool) (m : Nat) : (l.judgeSettling c b m).lastBlock = l.lastBlock := by unfold Lane.judgeSettling; (repeat' split) <;> rfl
@[simp] theorem judgeSettling_heldCount (c : Settings) (b : Bool) (m : Nat) : (l.judgeSettling c b m).heldCount = l.heldCount := by unfold Lane.judgeSettling; (repeat' split) <;> rfl

@[simp] theorem judgeSettled_entry (c : Settings) (b : Bool) (m : Nat) : (l.judgeSettled c b m).entry = l.entry := by unfold Lane.judgeSettled; (repeat' split) <;> rfl
@[simp] theorem judgeSettled_onset (c : Settings) (b : Bool) (m : Nat) : (l.judgeSettled c b m).onset = l.onset := by unfold Lane.judgeSettled; (repeat' split) <;> rfl
@[simp] theorem judgeSettled_rt (c : Settings) (b : Bool) (m : Nat) : (l.judgeSettled c b m).rt = l.rt := by unfold Lane.judgeSettled; (repeat' split) <;> rfl
@[simp] theorem judgeSettled_lastForce (c : Settings) (b : Bool) (m : Nat) : (l.judgeSettled c b m).lastForce = l.lastForce := by unfold Lane.judgeSettled; (repeat' split) <;> rfl
@[simp] theorem judgeSettled_block (c : Settings) (b : Bool) (m : Nat) : (l.judgeSettled c b m).block = l.block := by unfold Lane.judgeSettled; (repeat' split) <;> rfl
@[simp] theorem judgeSettled_lastBlock (c : Settings) (b : Bool) (m : Nat) : (l.judgeSettled c b m).lastBlock = l.lastBlock := by unfold Lane.judgeSettled; (repeat' split) <;> rfl
@[simp] theorem judgeSettled_heldCount (c : Settings) (b : Bool) (m : Nat) : (l.judgeSettled c b m).heldCount = l.heldCount := by unfold Lane.judgeSettled; (repeat' split) <;> rfl

@[simp] theorem blockEnd_entry (c : Settings) (b : Block) : (l.blockEnd c b).entry = l.entry := by unfold Lane.blockEnd; dsimp only; split <;> simp
@[simp] theorem blockEnd_onset (c : Settings) (b : Block) : (l.blockEnd c b).onset = l.onset := by unfold Lane.blockEnd; dsimp only; split <;> simp
@[simp] theorem blockEnd_rt (c : Settings) (b : Block) : (l.blockEnd c b).rt = l.rt := by unfold Lane.blockEnd; dsimp only; split <;> simp
@[simp] theorem blockEnd_lastForce (c : Settings) (b : Block) : (l.blockEnd c b).lastForce = l.lastForce := by unfold Lane.blockEnd; dsimp only; split <;> simp
@[simp] theorem blockEnd_heldCount (c : Settings) (b : Block) : (l.blockEnd c b).heldCount = l.heldCount := by unfold Lane.blockEnd; dsimp only; split <;> simp

@[simp] theorem joinBlock_entry (c : Settings) (f : Nat) : (l.joinBlock c f).entry = l.entry := by unfold Lane.joinBlock; dsimp only; split <;> simp
@[simp] theorem joinBlock_onset (c : Settings) (f : Nat) : (l.joinBlock c f).onset = l.onset := by unfold Lane.joinBlock; dsimp only; split <;> simp
@[simp] theorem joinBlock_rt (c : Settings) (f : Nat) : (l.joinBlock c f).rt = l.rt := by unfold Lane.joinBlock; dsimp only; split <;> simp
@[simp] theorem joinBlock_lastForce (c : Settings) (f : Nat) : (l.joinBlock c f).lastForce = l.lastForce := by unfold Lane.joinBlock; dsimp only; split <;> simp
@[simp] theorem joinBlock_heldCount (c : Settings) (f : Nat) : (l.joinBlock c f).heldCount = l.heldCount := by unfold Lane.joinBlock; dsimp only; split <;> simp

@[simp] theorem endRun_entry : (l.endRun).entry = l.entry := rfl
@[simp] theorem endRun_phase : (l.endRun).phase = l.phase := rfl
@[simp] theorem endRun_baseline : (l.endRun).baseline = l.baseline := rfl
@[simp] theorem endRun_onset : (l.endRun).onset = l.onset := rfl
@[simp] theorem endRun_rt : (l.endRun).rt = l.rt := rfl
@[simp] theorem endRun_lastForce : (l.endRun).lastForce = l.lastForce := rfl
@[simp] theorem endRun_block : (l.endRun).block = l.block := rfl
@[simp] theorem endRun_lastBlock : (l.endRun).lastBlock = l.lastBlock := rfl
@[simp] theorem endRun_settleCount : (l.endRun).settleCount = l.settleCount := rfl
@[simp] theorem endRun_heldCount : (l.endRun).heldCount = l.heldCount := rfl
@[simp] theorem endRun_lastJudged : (l.endRun).lastJudged = l.lastJudged := rfl

@[simp] theorem judgeSample_entry (v : Nat) (p : SamplePoint) : (l.judgeSample v p).entry = l.entry := by unfold Lane.judgeSample; dsimp only; (repeat' split) <;> rfl
@[simp] theorem judgeSample_phase (v : Nat) (p : SamplePoint) : (l.judgeSample v p).phase = l.phase := by unfold Lane.judgeSample; dsimp only; (repeat' split) <;> rfl
@[simp] theorem judgeSample_baseline (v : Nat) (p : SamplePoint) : (l.judgeSample v p).baseline = l.baseline := by unfold Lane.judgeSample; dsimp only; (repeat' split) <;> rfl
@[simp] theorem judgeSample_onset (v : Nat) (p : SamplePoint) : (l.judgeSample v p).onset = l.onset := by unfold Lane.judgeSample; dsimp only; (repeat' split) <;> rfl
@[simp] theorem judgeSample_rt (v : Nat) (p : SamplePoint) : (l.judgeSample v p).rt = l.rt := by unfold Lane.judgeSample; dsimp only; (repeat' split) <;> rfl
@[simp] theorem judgeSample_lastForce (v : Nat) (p : SamplePoint) : (l.judgeSample v p).lastForce = l.lastForce := by unfold Lane.judgeSample; dsimp only; (repeat' split) <;> rfl
@[simp] theorem judgeSample_block (v : Nat) (p : SamplePoint) : (l.judgeSample v p).block = l.block := by unfold Lane.judgeSample; dsimp only; (repeat' split) <;> rfl
@[simp] theorem judgeSample_lastBlock (v : Nat) (p : SamplePoint) : (l.judgeSample v p).lastBlock = l.lastBlock := by unfold Lane.judgeSample; dsimp only; (repeat' split) <;> rfl
@[simp] theorem judgeSample_settleCount (v : Nat) (p : SamplePoint) : (l.judgeSample v p).settleCount = l.settleCount := by unfold Lane.judgeSample; dsimp only; (repeat' split) <;> rfl
@[simp] theorem judgeSample_heldCount (v : Nat) (p : SamplePoint) : (l.judgeSample v p).heldCount = l.heldCount := by unfold Lane.judgeSample; dsimp only; (repeat' split) <;> rfl

@[simp] theorem detect_entry (c : Settings) (p : SamplePoint) : (l.detect c p).1.entry = l.entry := by
  unfold Lane.detect; split
  · rfl
  · dsimp only; (repeat' split) <;> simp
@[simp] theorem detect_phase (c : Settings) (p : SamplePoint) : (l.detect c p).1.phase = l.phase := by
  unfold Lane.detect; split
  · rfl
  · dsimp only; (repeat' split) <;> simp
@[simp] theorem detect_baseline (c : Settings) (p : SamplePoint) : (l.detect c p).1.baseline = l.baseline := by
  unfold Lane.detect; split
  · rfl
  · dsimp only; (repeat' split) <;> simp
@[simp] theorem detect_onset (c : Settings) (p : SamplePoint) : (l.detect c p).1.onset = l.onset := by
  unfold Lane.detect; split
  · rfl
  · dsimp only; (repeat' split) <;> simp
@[simp] theorem detect_rt (c : Settings) (p : SamplePoint) : (l.detect c p).1.rt = l.rt := by
  unfold Lane.detect; split
  · rfl
  · dsimp only; (repeat' split) <;> simp
@[simp] theorem detect_lastForce (c : Settings) (p : SamplePoint) : (l.detect c p).1.lastForce = l.lastForce := by
  unfold Lane.detect; split
  · rfl
  · dsimp only; (repeat' split) <;> simp
@[simp] theorem detect_block (c : Settings) (p : SamplePoint) : (l.detect c p).1.block = l.block := by
  unfold Lane.detect; split
  · rfl
  · dsimp only; (repeat' split) <;> simp
@[simp] theorem detect_lastBlock (c : Settings) (p : SamplePoint) : (l.detect c p).1.lastBlock = l.lastBlock := by
  unfold Lane.detect; split
  · rfl
  · dsimp only; (repeat' split) <;> simp
@[simp] theorem detect_settleCount (c : Settings) (p : SamplePoint) : (l.detect c p).1.settleCount = l.settleCount := by
  unfold Lane.detect; split
  · rfl
  · dsimp only; (repeat' split) <;> simp
@[simp] theorem detect_heldCount (c : Settings) (p : SamplePoint) : (l.detect c p).1.heldCount = l.heldCount := by
  unfold Lane.detect; split
  · rfl
  · dsimp only; (repeat' split) <;> simp

@[simp] theorem move_entry (o : Stamp) : (l.move o).entry = l.entry := rfl
@[simp] theorem move_baseline (o : Stamp) : (l.move o).baseline = l.baseline := rfl
@[simp] theorem move_rt (o : Stamp) : (l.move o).rt = l.rt := rfl
@[simp] theorem move_lastForce (o : Stamp) : (l.move o).lastForce = l.lastForce := rfl
@[simp] theorem move_lastBlock (o : Stamp) : (l.move o).lastBlock = l.lastBlock := rfl
@[simp] theorem move_settleCount (o : Stamp) : (l.move o).settleCount = l.settleCount := rfl
@[simp] theorem move_heldCount (o : Stamp) : (l.move o).heldCount = l.heldCount := rfl
@[simp] theorem move_runCount (o : Stamp) : (l.move o).runCount = l.runCount := rfl
@[simp] theorem move_runStart (o : Stamp) : (l.move o).runStart = l.runStart := rfl
@[simp] theorem move_predecessor (o : Stamp) : (l.move o).predecessor = l.predecessor := rfl
@[simp] theorem move_lastJudged (o : Stamp) : (l.move o).lastJudged = l.lastJudged := rfl

@[simp] theorem makeUnsure_entry : (l.makeUnsure).entry = l.entry := rfl
@[simp] theorem makeUnsure_baseline : (l.makeUnsure).baseline = l.baseline := rfl
@[simp] theorem makeUnsure_onset : (l.makeUnsure).onset = l.onset := rfl
@[simp] theorem makeUnsure_rt : (l.makeUnsure).rt = l.rt := rfl
@[simp] theorem makeUnsure_lastForce : (l.makeUnsure).lastForce = l.lastForce := rfl
@[simp] theorem makeUnsure_block : (l.makeUnsure).block = l.block := rfl
@[simp] theorem makeUnsure_lastBlock : (l.makeUnsure).lastBlock = l.lastBlock := rfl
@[simp] theorem makeUnsure_settleCount : (l.makeUnsure).settleCount = l.settleCount := rfl
@[simp] theorem makeUnsure_heldCount : (l.makeUnsure).heldCount = l.heldCount := rfl

@[simp] theorem react_entry (c : Settings) (i : LaneNo) (g : Option Stamp) (o : Stamp) : (l.react c i g o).1.entry = l.entry := by unfold Lane.react; split <;> rfl
@[simp] theorem react_baseline (c : Settings) (i : LaneNo) (g : Option Stamp) (o : Stamp) : (l.react c i g o).1.baseline = l.baseline := by unfold Lane.react; split <;> rfl
@[simp] theorem react_lastForce (c : Settings) (i : LaneNo) (g : Option Stamp) (o : Stamp) : (l.react c i g o).1.lastForce = l.lastForce := by unfold Lane.react; split <;> rfl
@[simp] theorem react_block (c : Settings) (i : LaneNo) (g : Option Stamp) (o : Stamp) : (l.react c i g o).1.block = l.block := by unfold Lane.react; split <;> rfl
@[simp] theorem react_lastBlock (c : Settings) (i : LaneNo) (g : Option Stamp) (o : Stamp) : (l.react c i g o).1.lastBlock = l.lastBlock := by unfold Lane.react; split <;> rfl
@[simp] theorem react_settleCount (c : Settings) (i : LaneNo) (g : Option Stamp) (o : Stamp) : (l.react c i g o).1.settleCount = l.settleCount := by unfold Lane.react; split <;> rfl
@[simp] theorem react_heldCount (c : Settings) (i : LaneNo) (g : Option Stamp) (o : Stamp) : (l.react c i g o).1.heldCount = l.heldCount := by unfold Lane.react; split <;> rfl
@[simp] theorem react_runCount (c : Settings) (i : LaneNo) (g : Option Stamp) (o : Stamp) : (l.react c i g o).1.runCount = l.runCount := by unfold Lane.react; split <;> rfl
@[simp] theorem react_runStart (c : Settings) (i : LaneNo) (g : Option Stamp) (o : Stamp) : (l.react c i g o).1.runStart = l.runStart := by unfold Lane.react; split <;> rfl
@[simp] theorem react_predecessor (c : Settings) (i : LaneNo) (g : Option Stamp) (o : Stamp) : (l.react c i g o).1.predecessor = l.predecessor := by unfold Lane.react; split <;> rfl
@[simp] theorem react_lastJudged (c : Settings) (i : LaneNo) (g : Option Stamp) (o : Stamp) : (l.react c i g o).1.lastJudged = l.lastJudged := by unfold Lane.react; split <;> rfl

@[simp] theorem linkLost_entry (h : HeatState) : (l.linkLost h).1.entry = l.entry := by unfold Lane.linkLost; split <;> [split; split; skip] <;> rfl
@[simp] theorem linkLost_onset (h : HeatState) : (l.linkLost h).1.onset = l.onset := by unfold Lane.linkLost; split <;> [split; split; skip] <;> rfl
@[simp] theorem linkLost_rt (h : HeatState) : (l.linkLost h).1.rt = l.rt := by unfold Lane.linkLost; split <;> [split; split; skip] <;> rfl
@[simp] theorem linkLost_lastForce (h : HeatState) : (l.linkLost h).1.lastForce = l.lastForce := by unfold Lane.linkLost; split <;> [split; split; skip] <;> rfl
@[simp] theorem linkLost_lastBlock (h : HeatState) : (l.linkLost h).1.lastBlock = l.lastBlock := by unfold Lane.linkLost; split <;> [split; split; skip] <;> rfl

@[simp] theorem gunAccepted_entry (c : Settings) (i : LaneNo) (g : Stamp) : (l.gunAccepted c i g).1.entry = l.entry := by unfold Lane.gunAccepted; dsimp only; (repeat' split) <;> rfl
@[simp] theorem gunAccepted_onset (c : Settings) (i : LaneNo) (g : Stamp) : (l.gunAccepted c i g).1.onset = l.onset := by unfold Lane.gunAccepted; dsimp only; (repeat' split) <;> rfl
@[simp] theorem gunAccepted_lastForce (c : Settings) (i : LaneNo) (g : Stamp) : (l.gunAccepted c i g).1.lastForce = l.lastForce := by unfold Lane.gunAccepted; dsimp only; (repeat' split) <;> rfl
@[simp] theorem gunAccepted_lastBlock (c : Settings) (i : LaneNo) (g : Stamp) : (l.gunAccepted c i g).1.lastBlock = l.lastBlock := by unfold Lane.gunAccepted; dsimp only; (repeat' split) <;> rfl
@[simp] theorem gunAccepted_settleCount (c : Settings) (i : LaneNo) (g : Stamp) : (l.gunAccepted c i g).1.settleCount = l.settleCount := by unfold Lane.gunAccepted; dsimp only; (repeat' split) <;> rfl
@[simp] theorem gunAccepted_heldCount (c : Settings) (i : LaneNo) (g : Stamp) : (l.gunAccepted c i g).1.heldCount = l.heldCount := by unfold Lane.gunAccepted; dsimp only; (repeat' split) <;> rfl

@[simp] theorem attemptSet_entry : (l.attemptSet).entry = l.entry := rfl
@[simp] theorem attemptSet_baseline : (l.attemptSet).baseline = l.baseline := rfl
@[simp] theorem attemptSet_onset : (l.attemptSet).onset = l.onset := rfl
@[simp] theorem attemptSet_rt : (l.attemptSet).rt = l.rt := rfl
@[simp] theorem attemptSet_lastForce : (l.attemptSet).lastForce = l.lastForce := rfl
@[simp] theorem attemptSet_runCount : (l.attemptSet).runCount = l.runCount := rfl
@[simp] theorem attemptSet_runStart : (l.attemptSet).runStart = l.runStart := rfl
@[simp] theorem attemptSet_predecessor : (l.attemptSet).predecessor = l.predecessor := rfl
@[simp] theorem attemptSet_lastJudged : (l.attemptSet).lastJudged = l.lastJudged := rfl

@[simp] theorem attemptEnded_entry : (l.attemptEnded).entry = l.entry := rfl
@[simp] theorem attemptEnded_phase : (l.attemptEnded).phase = l.phase := rfl
@[simp] theorem attemptEnded_baseline : (l.attemptEnded).baseline = l.baseline := rfl
@[simp] theorem attemptEnded_onset : (l.attemptEnded).onset = l.onset := rfl
@[simp] theorem attemptEnded_rt : (l.attemptEnded).rt = l.rt := rfl
@[simp] theorem attemptEnded_lastForce : (l.attemptEnded).lastForce = l.lastForce := rfl
@[simp] theorem attemptEnded_lastBlock : (l.attemptEnded).lastBlock = l.lastBlock := rfl
@[simp] theorem attemptEnded_settleCount : (l.attemptEnded).settleCount = l.settleCount := rfl
@[simp] theorem attemptEnded_heldCount : (l.attemptEnded).heldCount = l.heldCount := rfl

@[simp] theorem attemptCleared_entry : (l.attemptCleared).entry = l.entry := rfl
@[simp] theorem attemptCleared_lastForce : (l.attemptCleared).lastForce = l.lastForce := rfl

@[simp] theorem vacate_lastForce : (l.vacate).lastForce = l.lastForce := rfl
@[simp] theorem vacate_block : (l.vacate).block = l.block := rfl
@[simp] theorem vacate_lastBlock : (l.vacate).lastBlock = l.lastBlock := rfl
@[simp] theorem vacate_settleCount : (l.vacate).settleCount = l.settleCount := rfl
@[simp] theorem vacate_heldCount : (l.vacate).heldCount = l.heldCount := rfl
@[simp] theorem vacate_runCount : (l.vacate).runCount = l.runCount := rfl
@[simp] theorem vacate_runStart : (l.vacate).runStart = l.runStart := rfl
@[simp] theorem vacate_predecessor : (l.vacate).predecessor = l.predecessor := rfl
@[simp] theorem vacate_lastJudged : (l.vacate).lastJudged = l.lastJudged := rfl

@[simp] theorem enter_lastForce (b : Nat) : (l.enter b).lastForce = l.lastForce := rfl
@[simp] theorem enter_block (b : Nat) : (l.enter b).block = l.block := rfl
@[simp] theorem enter_lastBlock (b : Nat) : (l.enter b).lastBlock = l.lastBlock := rfl
@[simp] theorem enter_settleCount (b : Nat) : (l.enter b).settleCount = l.settleCount := rfl
@[simp] theorem enter_heldCount (b : Nat) : (l.enter b).heldCount = l.heldCount := rfl
@[simp] theorem enter_runCount (b : Nat) : (l.enter b).runCount = l.runCount := rfl
@[simp] theorem enter_runStart (b : Nat) : (l.enter b).runStart = l.runStart := rfl
@[simp] theorem enter_predecessor (b : Nat) : (l.enter b).predecessor = l.predecessor := rfl
@[simp] theorem enter_lastJudged (b : Nat) : (l.enter b).lastJudged = l.lastJudged := rfl

@[simp] theorem changeEntry_phase (f : Entry → Entry) : (l.changeEntry f).phase = l.phase := rfl
@[simp] theorem changeEntry_baseline (f : Entry → Entry) : (l.changeEntry f).baseline = l.baseline := rfl
@[simp] theorem changeEntry_onset (f : Entry → Entry) : (l.changeEntry f).onset = l.onset := rfl
@[simp] theorem changeEntry_rt (f : Entry → Entry) : (l.changeEntry f).rt = l.rt := rfl
@[simp] theorem changeEntry_lastForce (f : Entry → Entry) : (l.changeEntry f).lastForce = l.lastForce := rfl
@[simp] theorem changeEntry_block (f : Entry → Entry) : (l.changeEntry f).block = l.block := rfl
@[simp] theorem changeEntry_lastBlock (f : Entry → Entry) : (l.changeEntry f).lastBlock = l.lastBlock := rfl
@[simp] theorem changeEntry_settleCount (f : Entry → Entry) : (l.changeEntry f).settleCount = l.settleCount := rfl
@[simp] theorem changeEntry_heldCount (f : Entry → Entry) : (l.changeEntry f).heldCount = l.heldCount := rfl
@[simp] theorem changeEntry_runCount (f : Entry → Entry) : (l.changeEntry f).runCount = l.runCount := rfl
@[simp] theorem changeEntry_runStart (f : Entry → Entry) : (l.changeEntry f).runStart = l.runStart := rfl
@[simp] theorem changeEntry_predecessor (f : Entry → Entry) : (l.changeEntry f).predecessor = l.predecessor := rfl
@[simp] theorem changeEntry_lastJudged (f : Entry → Entry) : (l.changeEntry f).lastJudged = l.lastJudged := rfl

@[simp] theorem withdraw_baseline : (l.withdraw).baseline = l.baseline := rfl
@[simp] theorem withdraw_onset : (l.withdraw).onset = l.onset := rfl
@[simp] theorem withdraw_rt : (l.withdraw).rt = l.rt := rfl
@[simp] theorem withdraw_lastForce : (l.withdraw).lastForce = l.lastForce := rfl
@[simp] theorem withdraw_block : (l.withdraw).block = l.block := rfl
@[simp] theorem withdraw_lastBlock : (l.withdraw).lastBlock = l.lastBlock := rfl
@[simp] theorem withdraw_settleCount : (l.withdraw).settleCount = l.settleCount := rfl
@[simp] theorem withdraw_heldCount : (l.withdraw).heldCount = l.heldCount := rfl
@[simp] theorem withdraw_runCount : (l.withdraw).runCount = l.runCount := rfl
@[simp] theorem withdraw_runStart : (l.withdraw).runStart = l.runStart := rfl
@[simp] theorem withdraw_predecessor : (l.withdraw).predecessor = l.predecessor := rfl
@[simp] theorem withdraw_lastJudged : (l.withdraw).lastJudged = l.lastJudged := rfl

/-! ### Detection: what one sample can do (R111, R112, R113) -/

/-- A lane that does not detect is left as it was. -/
theorem detect_none (c : Settings) (p : SamplePoint) (h : l.level? = none) : l.detect c p = (l, none) := by
  simp [Lane.detect, h]

/-- The run count after a fresh sample is judged against a level (R111). -/
theorem judgeSample_runCount (v : Nat) (p : SamplePoint) :
    (l.judgeSample v p).runCount = if p.force < v then 0 else l.runCount + 1 := by
  unfold Lane.judgeSample
  dsimp only
  split
  · rfl
  · split
    · next h => simp [h]
    · rfl

/-- After detection the run is short of CONFIRM_COUNT (Table 6-1). -/
theorem detect_runCount (c : Settings) (p : SamplePoint) (h : l.runCount < c.confirmCount) :
    (l.detect c p).1.runCount < c.confirmCount := by
  unfold Lane.detect
  split
  · exact h
  · dsimp only
    generalize Lane.judgeSample _ p (if runLapses c l p.time then l.endRun else l) = m
    split
    · exact Nat.lt_of_le_of_lt (Nat.zero_le _) h
    · next hm => exact Nat.lt_of_not_le hm

/-! ### One sample taken in SET or in WATCH -/

/-- What a sample taken in SET can do to a lane (R89): it becomes stale, its block goes on, or detection confirms an onset. -/
theorem takeInSet_cases (c : Settings) (x : Sample) :
    (l.takeInSet c x = ({ ({ l with heldCount := heldAfter c l x } : Lane).resettle with block := Block.empty }, none) ∧
        staleAt c l x = true) ∨
      (staleAt c l x = false ∧
        ((∃ f, l.takeInSet c x = (({ l with heldCount := heldAfter c l x } : Lane).joinBlock c f, none) ∧
            (x.force = none ∨ l.phase ≠ .settled)) ∨
          ∃ f, x.force = some f ∧ l.phase = .settled ∧
            ((∃ o, (({ l with heldCount := heldAfter c l x } : Lane).detect c ⟨x.time, f⟩).2 = some o ∧
                l.takeInSet c x =
                  ((({ l with heldCount := heldAfter c l x } : Lane).detect c ⟨x.time, f⟩).1.move o, some .earlyMove)) ∨
              ((({ l with heldCount := heldAfter c l x } : Lane).detect c ⟨x.time, f⟩).2 = none ∧
                l.takeInSet c x =
                  ((({ l with heldCount := heldAfter c l x } : Lane).detect c ⟨x.time, f⟩).1.joinBlock c f, none))))) := by
  unfold Lane.takeInSet
  dsimp only
  split
  · next hs => exact .inl ⟨rfl, hs⟩
  · next hs =>
    refine .inr ⟨by simpa using hs, ?_⟩
    split
    · next hf => exact .inl ⟨_, rfl, .inl hf⟩
    · next f hf =>
      split
      · next hp =>
        refine .inr ⟨f, hf, hp, ?_⟩
        split
        · next l2 o hd => exact .inl ⟨o, by rw [hd], by rw [hd]⟩
        · next l2 hd => exact .inr ⟨by rw [hd], by rw [hd]⟩
      · next hp => exact .inl ⟨f, rfl, .inr hp⟩

/-- What a sample taken in WATCH can do to a lane (R124): it becomes UNSURE, it reacts, or only its counts move. -/
theorem takeInWatch_cases (c : Settings) (i : LaneNo) (g : Option Stamp) (x : Sample) :
    (l.takeInWatch c i g x = (({ l with heldCount := heldAfter c l x } : Lane).makeUnsure, some .unsureLane) ∧
        staleAt c l x = true ∧ (l.phase = .waiting ∨ l.phase = .settling)) ∨
      l.takeInWatch c i g x = ({ l with heldCount := heldAfter c l x }, none) ∨
      ∃ f, x.force = some f ∧ l.phase = .waiting ∧
        ((∃ o, (({ l with heldCount := heldAfter c l x } : Lane).detect c ⟨x.time, f⟩).2 = some o ∧
            l.takeInWatch c i g x =
              (({ l with heldCount := heldAfter c l x } : Lane).detect c ⟨x.time, f⟩).1.react c i g o) ∨
          ((({ l with heldCount := heldAfter c l x } : Lane).detect c ⟨x.time, f⟩).2 = none ∧
            l.takeInWatch c i g x =
              ((({ l with heldCount := heldAfter c l x } : Lane).detect c ⟨x.time, f⟩).1, none))) := by
  unfold Lane.takeInWatch
  dsimp only
  split
  · next hs =>
    simp only [Bool.and_eq_true, Bool.or_eq_true, beq_iff_eq] at hs
    exact .inl ⟨rfl, hs.1, hs.2⟩
  · split
    · exact .inr (.inl rfl)
    · next f hf =>
      split
      · next hp =>
        refine .inr (.inr ⟨f, hf, hp, ?_⟩)
        split
        · next l2 o hd => exact .inl ⟨o, by rw [hd], by rw [hd]⟩
        · next l2 hd => exact .inr ⟨by rw [hd], by rw [hd]⟩
      · exact .inr (.inl rfl)

@[simp] theorem takeInSet_entry (c : Settings) (x : Sample) : (l.takeInSet c x).1.entry = l.entry := by
  rcases takeInSet_cases l c x with ⟨h, _⟩ | ⟨_, ⟨_, h, _⟩ | ⟨_, _, _, ⟨_, _, h⟩ | ⟨_, h⟩⟩⟩ <;> simp [h]
@[simp] theorem takeInSet_rt (c : Settings) (x : Sample) : (l.takeInSet c x).1.rt = l.rt := by
  rcases takeInSet_cases l c x with ⟨h, _⟩ | ⟨_, ⟨_, h, _⟩ | ⟨_, _, _, ⟨_, _, h⟩ | ⟨_, h⟩⟩⟩ <;> simp [h]
@[simp] theorem takeInSet_lastForce (c : Settings) (x : Sample) : (l.takeInSet c x).1.lastForce = l.lastForce := by
  rcases takeInSet_cases l c x with ⟨h, _⟩ | ⟨_, ⟨_, h, _⟩ | ⟨_, _, _, ⟨_, _, h⟩ | ⟨_, h⟩⟩⟩ <;> simp [h]

@[simp] theorem takeInWatch_entry (c : Settings) (i : LaneNo) (g : Option Stamp) (x : Sample) :
    (l.takeInWatch c i g x).1.entry = l.entry := by
  rcases takeInWatch_cases l c i g x with ⟨h, _⟩ | h | ⟨_, _, _, ⟨_, _, h⟩ | ⟨_, h⟩⟩ <;> simp [h]
@[simp] theorem takeInWatch_baseline (c : Settings) (i : LaneNo) (g : Option Stamp) (x : Sample) :
    (l.takeInWatch c i g x).1.baseline = l.baseline := by
  rcases takeInWatch_cases l c i g x with ⟨h, _⟩ | h | ⟨_, _, _, ⟨_, _, h⟩ | ⟨_, h⟩⟩ <;> simp [h]
@[simp] theorem takeInWatch_lastForce (c : Settings) (i : LaneNo) (g : Option Stamp) (x : Sample) :
    (l.takeInWatch c i g x).1.lastForce = l.lastForce := by
  rcases takeInWatch_cases l c i g x with ⟨h, _⟩ | h | ⟨_, _, _, ⟨_, _, h⟩ | ⟨_, h⟩⟩ <;> simp [h]
@[simp] theorem takeInWatch_block (c : Settings) (i : LaneNo) (g : Option Stamp) (x : Sample) :
    (l.takeInWatch c i g x).1.block = l.block := by
  rcases takeInWatch_cases l c i g x with ⟨h, _⟩ | h | ⟨_, _, _, ⟨_, _, h⟩ | ⟨_, h⟩⟩ <;> simp [h]
@[simp] theorem takeInWatch_lastBlock (c : Settings) (i : LaneNo) (g : Option Stamp) (x : Sample) :
    (l.takeInWatch c i g x).1.lastBlock = l.lastBlock := by
  rcases takeInWatch_cases l c i g x with ⟨h, _⟩ | h | ⟨_, _, _, ⟨_, _, h⟩ | ⟨_, h⟩⟩ <;> simp [h]
@[simp] theorem takeInWatch_settleCount (c : Settings) (i : LaneNo) (g : Option Stamp) (x : Sample) :
    (l.takeInWatch c i g x).1.settleCount = l.settleCount := by
  rcases takeInWatch_cases l c i g x with ⟨h, _⟩ | h | ⟨_, _, _, ⟨_, _, h⟩ | ⟨_, h⟩⟩ <;> simp [h]

/-- A sample changes nothing but the last fresh drive force outside SET and WATCH (R89, R91). -/
theorem takeSample_idle {h : HeatState} (hs : h ≠ .set) (hw : h ≠ .watch) (c : Settings) (g : Option Stamp) (i : LaneNo)
    (x : Sample) : l.takeSample c h g i x = (l.noteFresh x, none) := by
  cases h <;> first | rfl | contradiction

/-- What a sample delivered in SET does (R89). -/
theorem takeSample_set (c : Settings) (g : Option Stamp) (i : LaneNo) (x : Sample) :
    l.takeSample c .set g i x =
      if l.phase = .settling ∨ l.phase = .settled then (l.noteFresh x).takeInSet c x
      else if l.phase = .moved then ({ l.noteFresh x with heldCount := heldAfter c (l.noteFresh x) x }, none)
      else (l.noteFresh x, none) := by
  simp [Lane.takeSample]

/-- What a sample delivered in WATCH does (R89). -/
theorem takeSample_watch (c : Settings) (g : Option Stamp) (i : LaneNo) (x : Sample) :
    l.takeSample c .watch g i x =
      if l.phase = .off then (l.noteFresh x, none) else (l.noteFresh x).takeInWatch c i g x := by
  simp [Lane.takeSample]

@[simp] theorem takeSample_entry (c : Settings) (h : HeatState) (g : Option Stamp) (i : LaneNo) (x : Sample) :
    (l.takeSample c h g i x).1.entry = l.entry := by
  cases h <;> simp only [Lane.takeSample, noteFresh_entry]
  · split
    · simp
    · split <;> simp
  · split <;> simp

@[simp] theorem takeSample_lastForce (c : Settings) (h : HeatState) (g : Option Stamp) (i : LaneNo) (x : Sample) :
    (l.takeSample c h g i x).1.lastForce = (l.noteFresh x).lastForce := by
  cases h <;> simp only [Lane.takeSample]
  · split
    · simp
    · split <;> simp
  · split <;> simp

/-! ### The entries -/

@[simp] theorem vacate_entry : l.vacate.entry = none := rfl
@[simp] theorem enter_entry (b : Nat) : (l.enter b).entry = some ⟨b, .eligible, [], none⟩ := rfl
@[simp] theorem changeEntry_entry (f : Entry → Entry) : (l.changeEntry f).entry = l.entry.map f := rfl
@[simp] theorem withdraw_entry : l.withdraw.entry = l.entry.map fun e => { e with standing := .withdrawn } := rfl
@[simp] theorem withdraw_phase : l.withdraw.phase = .off := rfl

/-- Eligibility reads the entry alone (R5). -/
theorem eligible_congr {l m : Lane} (h : m.entry = l.entry) : m.eligible = l.eligible := by
  simp [Lane.eligible, h]

/-- The standings of a lane eligible to start (R5). -/
theorem eligible_iff : l.eligible = true ↔ ∃ e, l.entry = some e ∧ (e.standing = .eligible ∨ e.standing = .cautioned) := by
  unfold Lane.eligible
  cases l.entry <;> simp

/-- A frame's sample reaches the entry of no lane (R61). -/
@[simp] theorem sampleDelivery_entry (s : State) (k : LinkId) (f : FrameInProgress) (w : Vector (BitVec 40) 6) (i : LaneNo) :
    (sampleDelivery s k f w i l).1.entry = l.entry := by
  unfold sampleDelivery
  split <;> simp

@[simp] theorem lossIndication_entry (c : Settings) (h : HeatState) (k : LinkId) (i : LaneNo) :
    (lossIndication c h k i l).1.entry = l.entry := by
  unfold lossIndication
  split <;> simp

@[simp] theorem gunIndication_entry (c : Settings) (g : Stamp) (i : LaneNo) :
    (gunIndication c g i l).1.entry = l.entry := by
  unfold gunIndication
  split <;> simp

end Sys2Proof.Laws
end

