-- ==== Sys2Proof/Laws/Judgement.lean ====
section
/-! SUPPORT. The judgement: what a charge, a rescind and a judged lane are, said once. -/

namespace Sys2Proof.Laws

open Sys2Proof.Machine

variable (e : Entry)

@[simp] theorem charge_bib (n : Nat) (x : Effect) (c : ChargeCause) : (e.charge n x c).bib = e.bib := rfl
@[simp] theorem charge_result (n : Nat) (x : Effect) (c : ChargeCause) : (e.charge n x c).result = e.result := rfl
@[simp] theorem charge_charges (n : Nat) (x : Effect) (c : ChargeCause) :
    (e.charge n x c).charges = e.charges ++ [⟨n, x, c, false⟩] := rfl

@[simp] theorem rescind_bib : e.rescind.bib = e.bib := rfl
@[simp] theorem rescind_result : e.rescind.result = e.result := rfl
@[simp] theorem rescind_charges : e.rescind.charges = e.charges.dropLast := rfl

@[simp] theorem finalize_bib : e.finalize.bib = e.bib := rfl
@[simp] theorem finalize_standing : e.finalize.standing = e.standing := rfl
@[simp] theorem finalize_result : e.finalize.result = e.result := rfl
@[simp] theorem finalize_charges : e.finalize.charges = e.charges.map fun c => { c with final := true } := rfl

/-- The charge of a culprit: none, or one entry with its RT at the tail of the list (R135). -/
theorem senseCharge_cases (p : Policy) (w : Bool) (n : Nat) (rt : Int) :
    e.senseCharge p w n rt = e ∨ ∃ x, sensedEffect p w e.standing = some x ∧ e.senseCharge p w n rt = e.charge n x (.sensed rt) := by
  unfold Entry.senseCharge
  split
  · exact .inl rfl
  · next x h => exact .inr ⟨x, h, rfl⟩

@[simp] theorem senseCharge_bib (p : Policy) (w : Bool) (n : Nat) (rt : Int) : (e.senseCharge p w n rt).bib = e.bib := by
  unfold Entry.senseCharge; split <;> rfl
@[simp] theorem senseCharge_result (p : Policy) (w : Bool) (n : Nat) (rt : Int) :
    (e.senseCharge p w n rt).result = e.result := by
  unfold Entry.senseCharge; split <;> rfl

/-- What the judgement makes of a lane: nothing of a lane not judged; else its entry takes its result and, when it is a
culprit, the charge the policy calls for (R140, R135). -/
theorem judgeLane_entry (s : State) (i : LaneNo) (l : Lane) :
    s.judgeLane i l = l ∨
      ∃ k, s.classOf i = some k ∧
        (s.judgeLane i l = l.changeEntry (fun e => { e with result := some ⟨s.resultKind i k, l.provisional⟩ }) ∨
          ∃ d rt, s.heat.id = some d ∧ k.falseRt = some rt ∧ s.isCulprit i = true ∧
            s.judgeLane i l = l.changeEntry fun e =>
              Entry.senseCharge d.policy s.heat.warning.isSome s.heat.attempt rt
                { e with result := some ⟨s.resultKind i k, l.provisional⟩ }) := by
  unfold State.judgeLane
  split
  · exact .inl rfl
  · next k hk =>
    refine .inr ⟨k, hk, ?_⟩
    rcases hd : s.heat.id with _ | d
    · exact .inl rfl
    · rcases hr : k.falseRt with _ | rt
      · exact .inl rfl
      · by_cases hc : s.isCulprit i = true
        · exact .inr ⟨d, rt, rfl, rfl, hc, by simp only [hc, if_true]⟩
        · exact .inl (by simp only [hc]; rfl)

/-- A lane is classed exactly when it is eligible to start (R129). -/
theorem classOf_isSome (s : State) (i : LaneNo) : (s.classOf i).isSome = s.lanes[i].eligible := by
  unfold State.classOf
  split <;> simp_all

/-- A false RT is that of a lane judged whose class is false (R131). -/
theorem falseRt_some {s : State} {i : LaneNo} {rt : Int} (h : s.falseRt i = some rt) :
    s.classOf i = some (.falseLane rt) := by
  unfold State.falseRt at h
  rcases hc : s.classOf i with _ | k
  · simp [hc] at h
  · cases k <;> simp_all [LaneClass.falseRt]

/-- The RT of a false lane is its current RT (R131). -/
theorem falseRt_current {s : State} {i : LaneNo} {rt : Int} (h : s.falseRt i = some rt) : s.lanes[i].rt = some rt := by
  have hc := falseRt_some h
  unfold State.classOf at hc
  split at hc
  · simp only [Option.some.injEq] at hc
    unfold Lane.classify at hc
    split at hc
    · next h1 => split at hc <;> simp_all
    · next h1 => simp_all
    · contradiction
    · contradiction
  · contradiction

/-- The earliest false RT is a false RT, and no false RT is less (R133). -/
theorem earliestFalse_iff (s : State) (rt : Int) :
    s.earliestFalse = some rt ↔ (∃ i, s.falseRt i = some rt) ∧ ∀ i x, s.falseRt i = some x → rt ≤ x := by
  unfold State.earliestFalse
  rw [List.min?_eq_some_iff]
  simp only [List.mem_filterMap, mem_allLanes, true_and]
  exact ⟨fun h => ⟨h.1, fun i x hx => h.2 x ⟨i, hx⟩⟩, fun h => ⟨h.1, fun x ⟨i, hx⟩ => h.2 i x hx⟩⟩

theorem earliestFalse_none (s : State) : s.earliestFalse = none ↔ ∀ i, s.falseRt i = none := by
  simp [State.earliestFalse, List.min?_eq_none_iff]

/-- The lanes of each list of the report (R133, R142). -/
@[simp] theorem mem_culprits (s : State) (i : LaneNo) : i ∈ s.culprits ↔ s.isCulprit i = true := by
  simp [State.culprits]
@[simp] theorem mem_provoked (s : State) (i : LaneNo) : i ∈ s.provoked ↔ s.isProvoked i = true := by
  simp [State.provoked]
@[simp] theorem mem_unsureLanes (s : State) (i : LaneNo) : i ∈ s.unsureLanes ↔ s.classOf i = some .unsure := by
  simp [State.unsureLanes]
@[simp] theorem mem_movers (s : State) (i : LaneNo) :
    i ∈ s.movers ↔ s.lanes[i].eligible = true ∧ s.lanes[i].phase = .moved := by
  simp [State.movers]

/-- A culprit is a false lane within TIE_TOLERANCE of the earliest false RT (R133). -/
theorem isCulprit_iff (s : State) (i : LaneNo) :
    s.isCulprit i = true ↔
      ∃ rt e, s.falseRt i = some rt ∧ s.earliestFalse = some e ∧ rt ≤ e + s.settings.tieTolerance := by
  unfold State.isCulprit
  split
  · next rt e h1 h2 => simp [h1, h2]
  · next h =>
    simp only [Bool.false_eq_true, false_iff]
    rintro ⟨rt, e, h1, h2, _⟩
    exact h rt e h1 h2

/-- A false lane makes the culprit list non-empty (R133). -/
theorem culprits_ne_nil {s : State} {i : LaneNo} (h : (s.falseRt i).isSome = true) : s.culprits ≠ [] := by
  obtain ⟨rt, hrt⟩ := Option.isSome_iff_exists.1 h
  rcases he : s.earliestFalse with _ | e
  · simp [(earliestFalse_none s).1 he i] at hrt
  · obtain ⟨⟨j, hj⟩, _⟩ := (earliestFalse_iff s e).1 he
    have : j ∈ s.culprits := by
      rw [mem_culprits, isCulprit_iff]
      exact ⟨e, e, hj, he, by omega⟩
    exact List.ne_nil_of_mem this

end Sys2Proof.Laws
end

