-- ==== Sys2Proof/Laws/Lanes.lean ====
section
/-! SUPPORT. How the operations on one lane and one entry keep the laws of Safety.lean that speak of one lane or one entry. -/

namespace Sys2Proof.Laws

open Sys2Proof.Machine

/-! ### The charge list and the standing (R8) -/

theorem charge_lawful {e : Entry} {n x c} (he : e.lawful) (hx : e.standing = .eligible ∨ (e.standing = .cautioned ∧
    x = .disqualify)) :
   (e.charge n x c).lawful := by
  unfold Entry.lawful at he
  rcases hx with h | ⟨h, rfl⟩
  · rw [h] at he
    cases x <;> simp_all [Entry.charge, Entry.lawful]
  · rw [h] at he
    simp only at he
    simp [Entry.charge, Entry.lawful, List.map_append, he]

theorem rescind_lawful {e : Entry} (he : e.lawful) : e.rescind.lawful := by
  obtain ⟨b, st, ch, r⟩ := e
  cases st <;> simp [Entry.lawful] at he
  · subst he; simp [Entry.rescind, Entry.lawful]
  · obtain ⟨c, rfl, hc⟩ := he
    simp [Entry.rescind, Entry.lawful]
  · rcases he with he | he
    · obtain ⟨c, rfl, hc⟩ := he
      simp [Entry.rescind, Entry.lawful]
    · rcases ch with _ | ⟨c, _ | ⟨d, _ | ⟨_, _⟩⟩⟩ <;> simp at he
      simp [Entry.rescind, Entry.lawful, he]
  · rcases he with he | he
    · subst he; simp [Entry.rescind, Entry.lawful]
    · obtain ⟨c, rfl, hc⟩ := he
      simp [Entry.rescind, Entry.lawful]

theorem senseCharge_lawful {e : Entry} {p w n rt} (he : e.lawful) (hx : e.standing = .eligible ∨ e.standing = .cautioned) :
   (e.senseCharge p w n rt).lawful := by
  unfold Entry.senseCharge sensedEffect
  split
  · exact he
  · next x hx' =>
    refine charge_lawful he ?_
    rcases hx with h | h
    · exact .inl h
    · cases p <;> simp_all

theorem finalize_lawful {e : Entry} (he : e.lawful) : e.finalize.lawful := by
  simpa [Entry.lawful, Entry.finalize, Function.comp_def] using he

/-! ### The level (R98) -/

theorem levelLawful_congr {c : Settings} {l m : Lane} (h1 : m.baseline = l.baseline ∨
    m.baseline = l.baseline.map fun b => { b with inUse := false }) (h2 : m.lastBlock = l.lastBlock) (h : l.levelLawful
        c) : m.levelLawful c := by
  refine ⟨fun b hb => ?_, fun k hk => h.2 k (by rw [← h2]; exact hk)⟩
  rcases h1 with h1 | h1 <;> rw [h1] at hb
  · exact h.1 b hb
  · simp at hb
    obtain ⟨b0, hb0, rfl⟩ := hb
    exact h.1 b0 hb0

theorem levelLawful_of_absent {c : Settings} {m : Lane} (h1 : m.baseline = none) (h2 : m.lastBlock = none) :
    m.levelLawful c := by
  constructor <;> simp [h1,h2]

theorem levelLawful_of_no_baseline {c : Settings} {l m : Lane} (h1 : m.baseline = none) (h2 : m.lastBlock = l.lastBlock)
    (h : l.levelLawful c)  : m.levelLawful c := by
  exact ⟨by simp [h1], by rw [h2]; exact h.2⟩

theorem levelLawful_of_block {c : Settings} {m : Lane} {l : Lane} {b : Block} (hl : l.levelLawful c)
   (h1 : m.baseline = l.baseline ∨ (m.baseline = l.baseline.map fun b => { b with inUse := false }) ∨
       (fits c b.mean = true ∧ m.baseline = some (baselineOf c .settled b.mean)))
   (h2 : m.lastBlock = some ⟨b.mean, threshold c b.mean⟩) : m.levelLawful c := by
  constructor
  · intro x hx
    rcases h1 with h1 | h1 | ⟨hf, h1⟩ <;> rw [h1] at hx
    · exact hl.1 x hx
    · simp at hx; obtain ⟨b0, hb0, rfl⟩ := hx; exact hl.1 b0 hb0
    · cases hx; simp [fits, Config.fullScale] at hf; simp [baselineOf]; exact of_decide_eq_true hf
  · intro k hk; rw [h2] at hk; cases hk; rfl

theorem levelLawful_blockEnd {c : Settings} {b} {l : Lane} (h : l.levelLawful c) : (l.blockEnd c b).levelLawful c := by
  unfold Lane.blockEnd Lane.judgeSettled Lane.judgeSettling
  dsimp only
  (repeat' split) <;> refine levelLawful_of_block (b := b) h ?_ rfl
  · exact .inl rfl
  · next hx => simp at hx; exact .inr (.inr ⟨hx.2, rfl⟩)
  · exact .inr (.inl rfl)
  · exact .inr (.inl rfl)
  · exact .inl rfl
  · next hx => exact .inr (.inr ⟨hx, rfl⟩)
  · exact .inl rfl

theorem levelLawful_joinBlock {c : Settings} {f} {l : Lane} (h : l.levelLawful c) : (l.joinBlock c f).levelLawful c := by
  unfold Lane.joinBlock; dsimp only; split
  · exact levelLawful_congr (.inl rfl) rfl h
  · exact levelLawful_blockEnd h

theorem levelLawful_takeSample {c : Settings} {h g i x} {l : Lane} (hl : l.levelLawful c) : (l.takeSample c h g i
    x).1.levelLawful c := by
  have hn : (l.noteFresh x).levelLawful c := levelLawful_congr (.inl (by simp)) (by simp) hl
  by_cases h1 : h = .set
  · subst h1; rw [takeSample_set]
    split
    · generalize l.noteFresh x = m at *
      rcases takeInSet_cases m c x with ⟨h, _⟩ | ⟨_, ⟨_, h, _⟩ | ⟨_, _, _, ⟨_, _, h⟩ | ⟨_, h⟩⟩⟩ <;> rw [h]
      · exact levelLawful_congr (.inr rfl) (by simp) hn
      · exact levelLawful_joinBlock (levelLawful_congr (.inl rfl) rfl hn)
      · exact levelLawful_congr (.inl (by simp)) (by simp) hn
      · exact levelLawful_joinBlock (levelLawful_congr (.inl (by simp)) (by simp) hn)
    · split
      · exact levelLawful_congr (.inl (by simp)) (by simp) hn
      · exact hn
  · by_cases h2 : h = .watch
    · subst h2; rw [takeSample_watch]; split
      · exact hn
      · exact levelLawful_congr (.inl (by simp)) (by simp) hn
    · rw [takeSample_idle _ h1 h2]; exact hn

theorem levelLawful_linkLost {c : Settings} {h} {l : Lane} (hl : l.levelLawful c) : (l.linkLost h).1.levelLawful c := by
  unfold Lane.linkLost
  split
  · split
    · exact levelLawful_congr (.inr rfl) (by simp) hl
    · exact hl
  · split
    · exact levelLawful_congr (.inl (by simp)) (by simp) hl
    · exact hl
  · exact hl

theorem levelLawful_gunAccepted {c : Settings} {i g} {l : Lane} (hl : l.levelLawful c) : (l.gunAccepted c i
    g).1.levelLawful c := by
  unfold Lane.gunAccepted
  dsimp only
  split
  · exact levelLawful_congr (.inl rfl) rfl hl
  · split
    · next b hb =>
      split
      · next hf =>
        refine ⟨fun x hx => ?_, hl.2⟩
        have ht := hl.2 b hb
        simp at hx
        subst hx
        simp [Config.fullScale] at hf ⊢
        exact ⟨ht, hf⟩
      · exact levelLawful_congr (.inl rfl) rfl hl
    · exact levelLawful_congr (.inl rfl) rfl hl
  · exact levelLawful_congr (.inl rfl) rfl hl
  · exact levelLawful_congr (.inl rfl) rfl hl

/-! ### Counts and forces (Tables 5-1 and 6-1) -/

/-- The block in progress is not full and the last fresh force is a drive force. -/
def BlockForceLawful (l : Lane) : Prop := l.block.count < 40 ∧ ∀ f, l.lastForce = some f → f ≤ 8190

/-- The counts of a sensing unit lie within the limits of the settings. -/
def CountsLawful (c : Settings) (l : Lane) : Prop := l.settleCount ≤ c.settleBlocks ∧ l.heldCount ≤ c.staleLimit ∧
    l.runCount < c.confirmCount

theorem blockForce_congr {l m : Lane} (h : BlockForceLawful l) (h1 : m.block = l.block ∨
    m.block = Block.empty) (h2 : m.lastForce = l.lastForce ∨ m.lastForce = none) : BlockForceLawful m := by
  refine ⟨?_, ?_⟩
  · rcases h1 with h1 | h1 <;> rw [h1]
    · exact h.1
    · simp [Block.empty]
  · rcases h2 with h2 | h2 <;> rw [h2]
    · exact h.2
    · simp

theorem join_count (b : Block) (f) : (b.join f).count = b.count + 1 := by unfold Block.join; split <;> simp_all

theorem blockEnd_block {c b} {l : Lane} : (l.blockEnd c b).block = Block.empty := by
  unfold Lane.blockEnd Lane.judgeSettled Lane.judgeSettling; dsimp only; (repeat' split) <;> rfl

theorem blockForce_joinBlock {c f} {l : Lane} (h : BlockForceLawful l) : BlockForceLawful (l.joinBlock c f) := by
  unfold Lane.joinBlock; dsimp only; split
  · next hc => exact ⟨hc, h.2⟩
  · exact blockForce_congr h (.inr blockEnd_block) (.inl (by simp))

theorem counts_blockEnd {c b} {l : Lane} (hc : 2 ≤ c.confirmCount) (h : CountsLawful c l) : CountsLawful c (l.blockEnd c
    b) := by
  obtain ⟨a1,a2,a3⟩ := h
  unfold Lane.blockEnd Lane.judgeSettled Lane.judgeSettling; dsimp only; (repeat' split)
  all_goals first | exact ⟨a1,a2,a3⟩ | exact ⟨Nat.zero_le _, a2, by show 0 < _; omega⟩ | exact ⟨le_refl _, a2,
      by show 0 < _; omega⟩ | exact ⟨by show _ ≤ _; dsimp only; omega, a2, a3⟩

theorem counts_joinBlock {c f} {l : Lane} (hc : 2 ≤ c.confirmCount) (h : CountsLawful c l) : CountsLawful c (l.joinBlock
    c f) := by
  unfold Lane.joinBlock; dsimp only; split
  · exact h
  · exact counts_blockEnd hc h

theorem counts_detect {c p} {l : Lane} (h : CountsLawful c l) : CountsLawful c (l.detect c p).1 :=
  ⟨by simpa using h.1, by simpa using h.2.1, detect_runCount _ _ _ h.2.2⟩

theorem counts_congr {c} {l m : Lane} (h : CountsLawful c l) (h1 : m.settleCount = l.settleCount ∨
    m.settleCount = 0) (h2 : m.heldCount = l.heldCount ∨ m.heldCount = 0) (h3 : m.runCount = l.runCount ∨
        m.runCount = 0) (hc : 2 ≤ c.confirmCount) : CountsLawful c m := by
  obtain ⟨a,b,d⟩ := h; refine ⟨?_,?_,?_⟩
  · rcases h1 with h | h <;> rw [h] <;> omega
  · rcases h2 with h | h <;> rw [h] <;> omega
  · rcases h3 with h | h <;> rw [h] <;> omega

theorem heldAfter_le (c l x) : heldAfter c l x ≤ c.staleLimit := by
  unfold heldAfter; split <;> omega

theorem counts_held {c x} {l : Lane} (h : CountsLawful c l) : CountsLawful c { l with heldCount := heldAfter c l x } :=
    ⟨h.1, heldAfter_le _ _ _, h.2.2⟩

theorem blockForce_takeSample {c h g i x} {l : Lane} (hx : ∀ f, x.force = some f →
    f ≤ 8190) (hl : BlockForceLawful l) : BlockForceLawful (l.takeSample c h g i x).1 := by
  have hn : BlockForceLawful (l.noteFresh x) := by
    unfold Lane.noteFresh; split
    · exact hl
    · next f hf => exact ⟨hl.1, fun y hy => by cases hy; exact hx _ hf⟩
  by_cases h1 : h = .set
  · subst h1; rw [takeSample_set]
    generalize l.noteFresh x = m at *
    split
    · rcases takeInSet_cases m c x with ⟨h, _⟩ | ⟨_, ⟨_, h, _⟩ | ⟨_, _, _, ⟨_, _, h⟩ | ⟨_, h⟩⟩⟩ <;> rw [h]
      · exact blockForce_congr hn (.inr rfl) (.inl (by simp))
      · exact blockForce_joinBlock hn
      · exact blockForce_congr hn (.inr rfl) (.inl (by simp [Lane.move]))
      · exact blockForce_joinBlock (blockForce_congr hn (.inl (by simp)) (.inl (by simp)))
    · split
      · exact hn
      · exact hn
  · by_cases h2 : h = .watch
    · subst h2; rw [takeSample_watch]; split
      · exact hn
      · exact blockForce_congr hn (.inl (by simp)) (.inl (by simp))
    · rw [takeSample_idle _ h1 h2]; exact hn

theorem counts_takeSample {c h g i x} {l : Lane} (hc : 2 ≤ c.confirmCount) (hl : CountsLawful c l) : CountsLawful c
    (l.takeSample c h g i x).1 := by
  have hn : CountsLawful c (l.noteFresh x) := by
    unfold Lane.noteFresh; split <;> exact hl
  by_cases h1 : h = .set
  · subst h1; rw [takeSample_set]
    generalize l.noteFresh x = m at *
    have hh : CountsLawful c { m with heldCount := heldAfter c m x } := counts_held hn
    split
    · rcases takeInSet_cases m c x with ⟨h, _⟩ | ⟨_, ⟨_, h, _⟩ | ⟨_, _, _, ⟨_, _, h⟩ | ⟨_, h⟩⟩⟩ <;> rw [h]
      · exact counts_congr hh (.inr rfl) (.inl rfl) (.inr rfl) hc
      · exact counts_joinBlock hc hh
      · exact counts_detect (p := _) hh
      · exact counts_joinBlock hc (counts_detect hh)
    · split
      · exact hh
      · exact hn
  · by_cases h2 : h = .watch
    · subst h2; rw [takeSample_watch]; split
      · exact hn
      · generalize l.noteFresh x = m at *
        have hh : CountsLawful c { m with heldCount := heldAfter c m x } := counts_held hn
        rcases takeInWatch_cases m c i g x with ⟨h, _⟩ | h | ⟨_, _, _, ⟨_, _, h⟩ | ⟨_, h⟩⟩ <;> rw [h]
        · exact counts_congr hh (.inl rfl) (.inl rfl) (.inr rfl) hc
        · exact hh
        · unfold Lane.react; split
          · exact counts_detect (p := _) hh
          · exact counts_detect (p := _) hh
        · exact counts_detect (p := _) hh
    · rw [takeSample_idle _ h1 h2]; exact hn

theorem slotForce_le (w) : slotForce w ≤ 8190 := by
  unfold slotForce pedalForce slotFront slotRear
  have h1 := (w.extractLsb' 28 12).isLt
  have h2 := (w.extractLsb' 16 12).isLt
  split <;> split <;> omega

theorem slotOutcome_force_le {f r w k x} (h : (slotOutcome f r w k).force = some x) : x ≤ 8190 := by
  unfold slotOutcome judgeSlot heldSlot at h
  split at h
  · split at h
    · cases h
    · split at h
      · cases h
      · dsimp only at h; split at h
        · cases h
        · cases h; exact slotForce_le _
  · cases h

theorem blockForce_linkLost {h} {l : Lane} (hl : BlockForceLawful l) : BlockForceLawful (l.linkLost h).1 := by
  unfold Lane.linkLost; split <;> (try split)
  · exact blockForce_congr hl (.inr rfl) (.inl (by simp))
  · exact hl
  · exact hl
  · exact hl
  · exact hl

theorem counts_linkLost {c h} {l : Lane} (hc : 2 ≤ c.confirmCount) (hl : CountsLawful c l) : CountsLawful c (l.linkLost
    h).1 := by
  unfold Lane.linkLost; split <;> (try split)
  · exact counts_congr hl (.inr rfl) (.inr rfl) (.inr rfl) hc
  · exact hl
  · exact counts_congr hl (.inl rfl) (.inl rfl) (.inr rfl) hc
  · exact hl
  · exact hl

theorem blockForce_counts_gunAccepted {c i g} {l : Lane} (hc : 2 ≤ c.confirmCount) (hl : BlockForceLawful l) (hl2 :
    CountsLawful c l) : BlockForceLawful (l.gunAccepted c i g).1 ∧ CountsLawful c (l.gunAccepted c i g).1 := by
  unfold Lane.gunAccepted; dsimp only
  split
  · exact ⟨blockForce_congr hl (.inr rfl) (.inl rfl), hl2⟩
  · split
    · split
      · exact ⟨blockForce_congr hl (.inr rfl) (.inl rfl), counts_congr hl2 (.inl rfl) (.inl rfl) (.inr rfl) hc⟩
      · exact ⟨blockForce_congr hl (.inr rfl) (.inl rfl), hl2⟩
    · exact ⟨blockForce_congr hl (.inr rfl) (.inl rfl), hl2⟩
  · exact ⟨blockForce_congr hl (.inr rfl) (.inl rfl), hl2⟩
  · exact ⟨blockForce_congr hl (.inr rfl) (.inl rfl), hl2⟩

/-! ### Reaction times (R117) -/

/-- A reaction time that is present lies in its range. -/
def RtLawful (o : Option Int) : Prop := ∀ x, o = some x → rtInRange x

theorem rtLawful_none : RtLawful none := fun _ h => by cases h

theorem saturateRt_range (x) : rtInRange (saturateRt x) := by unfold rtInRange saturateRt Config.rtLimit; constructor <;>
    omega

theorem rtLawful_some {x} (h : rtInRange x) : RtLawful (some x) := fun y hy => by cases hy; exact h

theorem moverRt_range {c i o g} : rtInRange (moverRt c i o g) := by
  unfold moverRt; split
  · simp [rtInRange, Config.rtLimit]
  · exact saturateRt_range _

theorem rtLawful_gunIndication {c g i} {l : Lane} (h : RtLawful l.rt) : RtLawful (gunIndication c g i l).1.rt := by
  unfold gunIndication Lane.gunAccepted; dsimp only
  (repeat' split) <;> try exact h
  cases l.onset
  · exact rtLawful_none
  · exact rtLawful_some moverRt_range

theorem rtLawful_takeSample {c h g i x} {l : Lane} (hl : RtLawful l.rt) : RtLawful (l.takeSample c h g i x).1.rt := by
  by_cases h1 : h = .set
  · subst h1; rw [takeSample_set]; (repeat' split) <;> simpa using hl
  · by_cases h2 : h = .watch
    · subst h2; rw [takeSample_watch]; split
      · simpa using hl
      · have hn : RtLawful (l.noteFresh x).rt := by simpa using hl
        generalize l.noteFresh x = m at *
        rcases takeInWatch_cases m c i g x with ⟨h, _⟩ | h | ⟨_, _, _, ⟨_, _, h⟩ | ⟨_, h⟩⟩ <;> rw [h]
        · exact hn
        · exact hn
        · unfold Lane.react; split
          · simpa using hn
          · exact rtLawful_some (saturateRt_range _)
        · simpa using hn
    · rw [takeSample_idle _ h1 h2]; simpa using hl

/-! ### The conditions of the permit (R82) -/

theorem allLanes_all_iff {p : LaneNo → Bool} : allLanes.all p = true ↔ ∀ i, p i = true := by
  simp [allLanes]; constructor
  · rintro ⟨h0,h1,h2,h3,h4,h5,h6,h7,h8,h9⟩ i; fin_cases i <;> assumption
  · intro h; exact ⟨h 0,h 1,h 2,h 3,h 4,h 5,h 6,h 7,h 8,h 9⟩

theorem allLanes_any_iff {p : LaneNo → Bool} : allLanes.any p = true ↔ ∃ i, p i = true := by
  simp [allLanes]; constructor
  · intro h; rcases h with h|h|h|h|h|h|h|h|h|h <;> exact ⟨_, h⟩
  · rintro ⟨i, h⟩; fin_cases i <;> simp_all

theorem linkReady_iff (s : State) (l) : s.linkReady l = true ↔ ∀ i : LaneNo, s.lanes[i].eligible = true →
    s.settings.serves l i = true → (s.link l).align = .locked := by
  unfold State.linkReady
  rw [Bool.or_eq_true, allLanes_all_iff]
  constructor
  · rintro (h | h) i h1 h2
    · simpa using h
    · have := h i; simp [h2] at this
      exact absurd h1 (by simp [this])
  · intro h
    by_cases hl : (s.link l).align = .locked
    · left; simpa using hl
    · right; intro i
      by_contra hc
      simp at hc
      exact hl (h i hc.1 hc.2)

theorem permitConditions_iff (s : State) : s.permitConditions = true ↔ s.heat.state = .set ∧
    (∃ i : LaneNo, s.lanes[i].eligible = true) ∧
      (∀ i : LaneNo, s.lanes[i].eligible = true → s.lanes[i].phase = .settled) ∧
      (∀ i : LaneNo, s.lanes[i].phase ≠ .moved) ∧
      ∀ (l : LinkId) (i : LaneNo), s.lanes[i].eligible = true → s.settings.serves l i = true →
          (s.link l).align = .locked := by
  unfold State.permitConditions State.anyEligible
  rw [Bool.and_eq_true, Bool.and_eq_true, Bool.and_eq_true, Bool.and_eq_true, Bool.and_eq_true, allLanes_any_iff,
      allLanes_all_iff, allLanes_all_iff, linkReady_iff, linkReady_iff]
  constructor
  · rintro ⟨⟨⟨⟨⟨h1,h2⟩,h3⟩,h4⟩,h5⟩,h6⟩
    refine ⟨by simpa using h1, h2, fun i hi => ?_, fun i => by simpa using h4 i, fun l i a b => ?_⟩
    · have := h3 i; simp at this hi; rw [hi] at this; simpa using this
    · cases l
      · exact h5 i a b
      · exact h6 i a b
  · rintro ⟨h1,h2,h3,h4,h5⟩
    refine ⟨⟨⟨⟨⟨by simpa using h1, h2⟩, fun i => ?_⟩, fun i => by simpa using h4 i⟩, h5 .a⟩, h5 .b⟩
    by_cases he : s.lanes[i].eligible = true
    · have := h3 i he; simp at this; simp [this]
    · simp at he; simp [he]

/-! ### Phases (Table 6-2) -/

/-- A lane that a close would judge false. -/
def JudgedFalse (c : Settings) (l : Lane) : Prop := l.eligible = true ∧ ∃ rt, l.rt = some rt ∧
    (l.phase = .moved ∨ (l.phase = .reacted ∧ isFalse c rt = true))

theorem falseRt_isSome_iff (s : State) (i : LaneNo) : (s.falseRt i).isSome = true ↔ JudgedFalse s.settings s.lanes[i] := by
  unfold State.falseRt State.classOf JudgedFalse
  generalize s.lanes[i] = l
  generalize s.settings = c
  by_cases he : l.eligible = true
  · rw [if_pos he]
    simp only [he, true_and, Option.bind_some]
    unfold Lane.classify
    split
    · next rt hp hr => by_cases hf : isFalse c rt = true <;> simp [hp, hr, hf, LaneClass.falseRt]
    · next rt hp hr => simp [hp, hr, LaneClass.falseRt]
    · next hp => simp [hp, LaneClass.falseRt]
    · next h1 h2 h3 =>
      simp only [LaneClass.falseRt, Option.isSome_none, Bool.false_eq_true, false_iff]
      rintro ⟨rt, hr, hp | ⟨hp, _⟩⟩
      · simp_all
      · simp_all
  · rw [if_neg he]; simp [he]

theorem detecting_congr {l m : Lane} (h : m.baseline = l.baseline) : m.detecting ↔ l.detecting := by
  unfold Lane.detecting Lane.level?; rw [h]

theorem not_detecting_resettle {l : Lane} : ¬ (l.resettle).detecting := by
  unfold Lane.detecting Lane.level?
  show ¬ (match l.baseline.map (fun b : Baseline => { b with inUse := false }) with
    | some b => if b.inUse then some b.level else none
    | none => none).isSome = true
  cases l.baseline <;> simp

theorem not_detecting_of_resettle {l m : Lane} (h : m.baseline = l.resettle.baseline) : ¬ m.detecting := by
  rw [detecting_congr h]; exact not_detecting_resettle

theorem detecting_baselineOf {c k n} {m : Lane} (h : m.baseline = some (baselineOf c k n)) : m.detecting := by
  unfold Lane.detecting Lane.level?; rw [h]; rfl

theorem detecting_of_onset {c p} {l : Lane} {o} (h : (l.detect c p).2 = some o) : l.detecting := by
  unfold Lane.detect at h; unfold Lane.detecting
  cases hl : l.level?
  · rw [hl] at h; cases h
  · rfl

/-- A lane of the attempt in SET that has not moved. -/
def SettlingOrSettled (l : Lane) : Prop := (l.phase = .settling ∧ ¬ l.detecting) ∨ (l.phase = .settled ∧ l.detecting)

theorem settlingOrSettled_blockEnd {c b} {l : Lane} (h : SettlingOrSettled l) : SettlingOrSettled (l.blockEnd c b) := by
  unfold Lane.blockEnd; dsimp only
  rcases h with ⟨hp, hd⟩ | ⟨hp, hd⟩
  · rw [if_neg (by simp [hp])]
    unfold Lane.judgeSettling; (repeat' split)
    · exact .inl ⟨rfl, not_detecting_of_resettle rfl⟩
    · exact .inl ⟨hp, fun h => hd ((detecting_congr rfl).1 h)⟩
    · exact .inr ⟨rfl, detecting_baselineOf rfl⟩
    · exact .inl ⟨hp, fun h => hd ((detecting_congr rfl).1 h)⟩
  · rw [if_pos hp]
    unfold Lane.judgeSettled; (repeat' split)
    · exact .inr ⟨hp, hd⟩
    · exact .inr ⟨hp, detecting_baselineOf rfl⟩
    · exact .inl ⟨rfl, not_detecting_of_resettle rfl⟩

theorem settlingOrSettled_joinBlock {c f} {l : Lane} (h : SettlingOrSettled l) : SettlingOrSettled (l.joinBlock c f) := by
  unfold Lane.joinBlock; dsimp only; split
  · exact h
  · exact settlingOrSettled_blockEnd h

theorem settlingOrSettled_congr {l m : Lane} (h : SettlingOrSettled l) (h1 : m.phase = l.phase) (h2 : m.baseline =
    l.baseline) : SettlingOrSettled m := by
  unfold SettlingOrSettled at *; rw [h1, detecting_congr h2]; exact h

theorem setLawful_of_settlingOrSettled {m : Lane} (h : SettlingOrSettled m) (he : m.eligible = true) (hr : m.rt = none) :
    m.setLawful := by
  refine ⟨hr, ?_⟩; rw [if_pos he]; rcases h with h | h
  · exact .inl h
  · exact .inr (.inl h)

theorem setLawful_of_phase {n l : Lane} (he : l.eligible = true) (hn : n.entry = l.entry) (hr : n.rt = none) (h :
    (n.phase = .settling ∧ ¬ n.detecting) ∨ (n.phase = .settled ∧ n.detecting) ∨ (n.phase = .moved ∧
        n.onset.isSome = true)) : n.setLawful := by
  refine ⟨hr, ?_⟩; rw [if_pos ((eligible_congr hn).trans he)]; exact h

theorem watchLawful_of_phase {n l : Lane} (he : l.eligible = true) (hn : n.entry = l.entry) (h : (n.phase = .settling ∧
    ¬ n.detecting) ∨ (n.phase = .waiting ∧ n.detecting) ∨ n.phase = .unsure ∨
      ((n.phase = .moved ∨ n.phase = .reacted) ∧ n.onset.isSome = true ∧ n.rt.isSome = true)) : n.watchLawful := by
      unfold Lane.watchLawful; rw [if_pos ((eligible_congr hn).trans he)]; exact h

theorem setLawful_takeSample {c g i x} {l : Lane} (h : l.setLawful) : (l.takeSample c .set g i x).1.setLawful := by
  have heq : (l.takeSample c .set g i x).1.eligible = l.eligible := eligible_congr (by simp)
  have hrt : (l.takeSample c .set g i x).1.rt = l.rt := by rw [takeSample_set]; (repeat' split) <;> simp
  obtain ⟨hr, hp⟩ := h
  by_cases he : l.eligible = true
  · rw [if_pos he] at hp
    have key : l.phase = .moved ∧ l.onset.isSome = true ∨ SettlingOrSettled l := by
      rcases hp with h | h | h
      · exact .inr (.inl h)
      · exact .inr (.inr h)
      · exact .inl h
    rcases key with ⟨hm, ho⟩ | hss
    · refine ⟨by rw [hrt, hr], ?_⟩
      rw [heq, if_pos he]
      rw [takeSample_set, if_neg (by simp [hm]), if_pos hm]
      exact .inr (.inr ⟨by simpa using hm, by simpa using ho⟩)
    · have hph : l.phase = .settling ∨ l.phase = .settled := by rcases hss with h | h <;> simp [h.1]
      have hn : SettlingOrSettled (l.noteFresh x) := settlingOrSettled_congr hss (by simp) (by simp)
      refine ⟨by rw [hrt, hr], ?_⟩
      rw [heq, if_pos he]
      rw [takeSample_set, if_pos hph]
      generalize l.noteFresh x = m at *
      have fin : ∀ n : Lane, SettlingOrSettled n → (n.phase = .settling ∧ ¬ n.detecting) ∨ (n.phase = .settled ∧
          n.detecting) ∨ (n.phase = .moved ∧ n.onset.isSome = true) := by
        intro n h; rcases h with h | h
        · exact .inl h
        · exact .inr (.inl h)
      rcases takeInSet_cases m c x with ⟨h, _⟩ | ⟨_, ⟨_, h, _⟩ | ⟨_, _, _, ⟨_, _, h⟩ | ⟨_, h⟩⟩⟩ <;> rw [h]
      · exact .inl ⟨rfl, not_detecting_of_resettle (l := m) rfl⟩
      · exact fin _ (settlingOrSettled_joinBlock (settlingOrSettled_congr hn rfl rfl))
      · exact .inr (.inr ⟨rfl, rfl⟩)
      · exact fin _ (settlingOrSettled_joinBlock (settlingOrSettled_congr hn (by simp) (by simp)))
  · refine ⟨by rw [hrt, hr], ?_⟩
    rw [if_neg he] at hp
    rw [heq, if_neg he]
    rw [takeSample_set]; simp [hp]

theorem setLawful_linkLost {l : Lane} (h : l.setLawful) : (l.linkLost .set).1.setLawful := by
  unfold Lane.linkLost; dsimp only
  obtain ⟨hr, hp⟩ := h
  split
  · next hph =>
    have he : l.eligible = true := by
      by_contra hc; rw [if_neg hc] at hp; simp [hp] at hph
    exact setLawful_of_phase he rfl hr (.inl ⟨rfl, not_detecting_of_resettle (l := l) rfl⟩)
  · exact ⟨hr, hp⟩

theorem watchLawful_takeSample {c g i x} {l : Lane} (h : l.watchLawful) : (l.takeSample c .watch (some g) i x).1.watchLawful ∧
   (JudgedFalse c l → JudgedFalse c (l.takeSample c .watch (some g) i x).1) ∧
   ((l.takeSample c .watch (some g) i x).2 = some .falseOnset → JudgedFalse c (l.takeSample c .watch (some g) i x).1) ∧
   (JudgedFalse c (l.takeSample c .watch (some g) i x).1 → JudgedFalse c l ∨
       (l.takeSample c .watch (some g) i x).2 = some .falseOnset) := by
  have heq : (l.takeSample c .watch (some g) i x).1.eligible = l.eligible := eligible_congr (by simp)
  by_cases he : l.eligible = true
  swap
  · have hp := h; unfold Lane.watchLawful at hp; rw [if_neg he] at hp
    rw [takeSample_watch, if_pos hp] at heq ⊢
    refine ⟨?_, ?_, by simp, ?_⟩
    · unfold Lane.watchLawful; rw [heq, if_neg he]; simpa using hp
    · rintro ⟨a, _⟩; exact absurd a he
    · rintro ⟨a, _⟩; rw [heq] at a; exact absurd a he
  · have hoff : l.phase ≠ .off := by
      unfold Lane.watchLawful at h; rw [if_pos he] at h
      rcases h with h | h | h | ⟨h | h, _⟩ <;> simp [h]
    rw [takeSample_watch, if_neg hoff] at heq ⊢
    have hw : (l.noteFresh x).watchLawful := by
      unfold Lane.watchLawful at *; rw [eligible_congr (l := l) (by simp)]; rw [detecting_congr (l :=
          l) (by simp)]; simpa using h
    have hLF : JudgedFalse c l ↔ JudgedFalse c (l.noteFresh x) := by
      unfold JudgedFalse; rw [eligible_congr (l := l) (m := l.noteFresh x) (by simp)]; simp
    have he' : (l.noteFresh x).eligible = true := (eligible_congr (by simp)).trans he
    rw [hLF]
    rw [he, ← he'] at heq
    clear hLF h hoff
    generalize l.noteFresh x = m at *
    have hw' := hw
    unfold Lane.watchLawful at hw; rw [if_pos he'] at hw
    have lawful : ∀ n : Lane, n.eligible = true → ((n.phase = .settling ∧ ¬ n.detecting) ∨ (n.phase = .waiting ∧
        n.detecting) ∨ n.phase = .unsure ∨
      ((n.phase = .moved ∨ n.phase = .reacted) ∧ n.onset.isSome = true ∧ n.rt.isSome = true)) → n.watchLawful := by
      intro n hn h; unfold Lane.watchLawful; rw [if_pos hn]; exact h
    have notFalse : ∀ n : Lane, (n.phase = .waiting ∨ n.phase = .settling ∨ n.phase = .unsure) → ¬ JudgedFalse c n := by
      rintro n hn ⟨_, rt, _, hp | ⟨hp, _⟩⟩ <;> rcases hn with hn | hn | hn <;> simp [hp] at hn
    rcases takeInWatch_cases m c i (some g) x with ⟨h, _, hph⟩ | h | ⟨f, hf, hph, ⟨o, ho, h⟩ | ⟨ho, h⟩⟩ <;> rw [h] at heq ⊢
    · refine ⟨lawful _ (heq.trans he') (.inr (.inr (.inl rfl))), fun hl => absurd hl (notFalse m (by rcases hph with h |
        h <;> simp [h])), by simp, fun hl => absurd hl (notFalse _ (.inr (.inr rfl)))⟩
    · exact ⟨lawful _ (heq.trans he') hw, fun hl => hl, by simp, fun hl => .inl hl⟩
    · simp only [Lane.react] at heq ⊢
      refine ⟨lawful _ (heq.trans he') (.inr (.inr (.inr ⟨.inr rfl, rfl, rfl⟩))),
          fun hl => absurd hl (notFalse m (.inl hph)), fun hl => ?_, fun hl => .inr ?_⟩
      · split at hl
        · next hfl => exact ⟨heq.trans he', _, rfl, .inr ⟨rfl, hfl⟩⟩
        · cases hl
      · obtain ⟨_, rt, hrt, hp | ⟨_, hfl⟩⟩ := hl
        · cases hp
        · cases hrt; rw [if_pos hfl]
    · refine ⟨lawful _ (heq.trans he') (.inr (.inl ⟨by simpa using hph, ?_⟩)),
        fun hl => absurd hl (notFalse m (.inl hph)), by simp, fun hl => absurd hl (notFalse _ (.inl (by simpa using hph)))⟩
      rw [detecting_congr (l := m) (by simp)]
      rcases hw with h | h | h | ⟨h | h, _⟩
      · rw [hph] at h; cases h.1
      · exact h.2
      all_goals rw [hph] at h; cases h

theorem watchLawful_linkLost {c} {l : Lane} (h : l.watchLawful) : (l.linkLost .watch).1.watchLawful ∧
    (JudgedFalse c (l.linkLost .watch).1 ↔ JudgedFalse c l) ∧ (l.linkLost .watch).2 ≠ some .falseOnset := by
  unfold Lane.linkLost; dsimp only
  split
  · next hph =>
    have he : l.eligible = true := by
      by_contra hc; unfold Lane.watchLawful at h; rw [if_neg hc] at h; simp [h] at hph
    refine ⟨?_, ?_, by simp⟩
    · exact watchLawful_of_phase he rfl (.inr (.inr (.inl rfl)))
    · constructor
      · rintro ⟨_, rt, _, hp | ⟨hp, _⟩⟩ <;> cases hp
      · rintro ⟨_, rt, _, hp | ⟨hp, _⟩⟩ <;> simp [hp] at hph
  · exact ⟨h, Iff.rfl, by simp⟩

theorem watchLawful_gunIndication {c g i} {l : Lane} (h : l.setLawful) : (gunIndication c g i l).1.watchLawful ∧
    (JudgedFalse c (gunIndication c g i l).1 ↔ (gunIndication c g i l).2 = some .falseOnset) := by
  unfold gunIndication
  obtain ⟨hr, hp⟩ := h
  by_cases he : l.eligible = true
  · rw [if_pos he] at hp ⊢
    have lawful : ∀ n : Lane, n.entry = l.entry → ((n.phase = .settling ∧ ¬ n.detecting) ∨ (n.phase = .waiting ∧
        n.detecting) ∨ n.phase = .unsure ∨
      ((n.phase = .moved ∨ n.phase = .reacted) ∧ n.onset.isSome = true ∧ n.rt.isSome = true)) → n.watchLawful := by
      intro n hn h; exact watchLawful_of_phase he hn h
    have notFalse : ∀ n : Lane, (n.phase = .waiting ∨ n.phase = .settling ∨ n.phase = .unsure) → ¬ JudgedFalse c n := by
      rintro n hn ⟨_, rt, _, hp | ⟨hp, _⟩⟩ <;> rcases hn with hn | hn | hn <;> simp [hp] at hn
    unfold Lane.gunAccepted; dsimp only
    rcases hp with ⟨hp, hd⟩ | ⟨hp, hd⟩ | ⟨hp, ho⟩
    · simp only [hp]
      have stay : ∀ n : Lane, n.entry = l.entry → n.phase = .settling → n.baseline = l.baseline →
          n.watchLawful ∧ (JudgedFalse c n ↔ (none : Option LaneReport) = some .falseOnset) := by
        intro n h1 h2 h3
        refine ⟨lawful n h1 (.inl ⟨h2, fun h => hd ((detecting_congr h3).1 h)⟩), ?_⟩
        exact ⟨fun h => absurd h (notFalse n (by simp [h2])), fun h => by cases h⟩
      split
      · split
        · refine ⟨lawful _ (by simp) (.inr (.inl ⟨rfl, ?_⟩)), ⟨fun h => absurd h (notFalse _ (.inl rfl)),
            fun h => by cases h⟩⟩
          unfold Lane.detecting Lane.level?; rfl
        · exact stay _ rfl rfl rfl
      · exact stay _ rfl rfl rfl
    · simp only [hp]
      exact ⟨lawful _ rfl (.inr (.inl ⟨rfl, (detecting_congr rfl).2 hd⟩)), ⟨fun h => absurd h (notFalse _ (.inl rfl)),
          fun h => by cases h⟩⟩
    · simp only [hp]
      obtain ⟨o, ho'⟩ := Option.isSome_iff_exists.1 ho
      exact ⟨lawful _ rfl (.inr (.inr (.inr ⟨.inl rfl, ho, by simp [ho']⟩))), ⟨fun _ => by trivial,
          fun _ => ⟨(eligible_congr rfl).trans he, moverRt c i o g, by simp [ho'], .inl rfl⟩⟩⟩
  · rw [if_neg he] at hp ⊢
    refine ⟨?_, ⟨fun h => absurd h.1 he, fun h => by cases h⟩⟩
    unfold Lane.watchLawful; rw [if_neg he]; exact hp

end Sys2Proof.Laws
end

