-- ==== Sys2Proof/Laws/Notices.lean ====
section
/-! SUPPORT. The notice unit after each shared operation: which flags are raised, and that levels and ceiling stand; and that
these operations touch nothing but the fields they name. -/

namespace Sys2Proof.Laws

open Sys2Proof.Machine

variable (s : State) (x : NoticeSource)

/-! ### Flags -/

theorem raise_event (y : NoticeSource) :
    (s.raise y).notices.events[x.index] = true ↔ s.notices.events[x.index] = true ∨ x = y := by
  cases x <;> cases y <;> simp [NoticeSource.index]

theorem raiseIf_event (b : Bool) (y : NoticeSource) :
    (s.raiseIf b y).notices.events[x.index] = true ↔ s.notices.events[x.index] = true ∨ b = true ∧ x = y := by
  cases b
  · simp
  · rw [raiseIf_true, raise_event]
    simp

theorem clearEvent_event (y : NoticeSource) :
    (s.clearEvent y).notices.events[x.index] = true ↔ s.notices.events[x.index] = true ∧ x ≠ y := by
  cases x <;> cases y <;> simp [NoticeSource.index]

theorem settlePermit_event : s.settlePermit.notices.events[x.index] = true ↔
    s.notices.events[x.index] = true ∨ s.permitConditions ≠ s.gun.permitOut ∧ x = .permitChange := by
  rw [settlePermit_notices, raiseIf_event]
  simp

theorem issueRecall_event (c : RecallCause) : (s.issueRecall c).notices.events[x.index] = true ↔
    s.notices.events[x.index] = true ∨ s.heat.issued = none ∧ (x = .recall ∨ x = .falseStart ∧ c = .falseStart) := by
  unfold State.issueRecall
  split
  · next h => simp [h]
  · next h =>
    rw [raiseIf_event, raise_event]
    simp [h, or_assoc, and_comm]

theorem issueRecallIf_event (b : Bool) (c : RecallCause) : (s.issueRecallIf b c).notices.events[x.index] = true ↔
    s.notices.events[x.index] = true ∨
      b = true ∧ s.heat.issued = none ∧ (x = .recall ∨ x = .falseStart ∧ c = .falseStart) := by
  cases b
  · simp
  · rw [issueRecallIf_true, issueRecall_event]
    simp

/-- What the lanes' reports raise (R40, R119, R122, R126). -/
theorem takeReports_event (f : LaneNo → Lane → Lane × Option LaneReport) :
    (s.takeReports f).notices.events[x.index] = true ↔ s.notices.events[x.index] = true ∨
      s.reported f .earlyMove = true ∧ x = .earlyMove ∨ s.reported f .unsureLane = true ∧ x = .laneUnsure ∨
      s.heat.issued = none ∧ (s.reported f .falseOnset = true ∧ (x = .recall ∨ x = .falseStart) ∨
        (s.reported f .unsureLane && s.settings.unsureRecall) = true ∧ x = .recall) := by
  unfold State.takeReports
  rw [issueRecallIf_event, raiseIf_event, issueRecallIf_event, raiseIf_event]
  cases s.reported f .falseOnset <;> cases s.reported f .unsureLane <;> cases s.settings.unsureRecall <;>
    cases s.reported f .earlyMove <;> cases hi : s.heat.issued <;> simp [hi, or_assoc, or_comm, or_left_comm]

/-! ### Levels and ceiling -/

@[simp] theorem raiseIf_levels (b : Bool) : (s.raiseIf b x).notices.levels = s.notices.levels := by cases b <;> rfl
@[simp] theorem raiseIf_ceiling (b : Bool) : (s.raiseIf b x).notices.ceiling = s.notices.ceiling := by cases b <;> rfl
@[simp] theorem settlePermit_levels : s.settlePermit.notices.levels = s.notices.levels := by simp [settlePermit_notices]
@[simp] theorem settlePermit_ceiling : s.settlePermit.notices.ceiling = s.notices.ceiling := by simp [settlePermit_notices]

@[simp] theorem issueRecall_levels (c : RecallCause) : (s.issueRecall c).notices.levels = s.notices.levels := by
  unfold State.issueRecall
  split <;> simp
@[simp] theorem issueRecall_ceiling (c : RecallCause) : (s.issueRecall c).notices.ceiling = s.notices.ceiling := by
  unfold State.issueRecall
  split <;> simp
@[simp] theorem issueRecallIf_levels (b : Bool) (c : RecallCause) :
    (s.issueRecallIf b c).notices.levels = s.notices.levels := by
  cases b <;> simp
@[simp] theorem issueRecallIf_ceiling (b : Bool) (c : RecallCause) :
    (s.issueRecallIf b c).notices.ceiling = s.notices.ceiling := by
  cases b <;> simp
@[simp] theorem takeReports_levels (f : LaneNo → Lane → Lane × Option LaneReport) :
    (s.takeReports f).notices.levels = s.notices.levels := by
  simp [State.takeReports]
@[simp] theorem takeReports_ceiling (f : LaneNo → Lane → Lane × Option LaneReport) :
    (s.takeReports f).notices.ceiling = s.notices.ceiling := by
  simp [State.takeReports]

/-! ### Nothing else -/

@[simp] theorem settlePermit_link (l : LinkId) : s.settlePermit.link l = s.link l := link_congr (by simp) (by simp) l
@[simp] theorem takeReports_link (f : LaneNo → Lane → Lane × Option LaneReport) (l : LinkId) :
    (s.takeReports f).link l = s.link l :=
  link_congr (by simp) (by simp) l

/-- The heat record after the lanes' reports (R40). -/
theorem takeReports_heat (f : LaneNo → Lane → Lane × Option LaneReport) :
    (s.takeReports f).heat =
      if s.heat.issued ≠ none then s.heat
      else if s.reported f .falseOnset then { s.heat with
        issued := some ⟨.falseStart, s.trackTime⟩, pulseEnd := some (stampAdd s.trackTime s.settings.recallPulse) }
      else if s.reported f .unsureLane ∧ s.settings.unsureRecall = true then { s.heat with
        issued := some ⟨.equipment, s.trackTime⟩, pulseEnd := some (stampAdd s.trackTime s.settings.recallPulse) }
      else s.heat := by
  unfold State.takeReports State.issueRecallIf State.issueRecall
  cases hi : s.heat.issued <;> cases s.reported f .falseOnset <;> cases s.reported f .unsureLane <;>
    cases s.settings.unsureRecall <;> simp [hi]

/-- Settling the permit touches PERMIT_OUT and the notices alone. -/
theorem settlePermit_rest : { s.settlePermit with gun := s.gun, notices := s.notices } = s := by
  unfold State.settlePermit
  split <;> rfl

/-- The issue of a recall touches the heat record and the notices alone. -/
theorem issueRecall_rest (c : RecallCause) : { s.issueRecall c with heat := s.heat, notices := s.notices } = s := by
  unfold State.issueRecall
  split
  · rfl
  · cases c <;> rfl

/-- The lanes' reports touch the lanes, the heat record and the notices alone. -/
theorem takeReports_rest (f : LaneNo → Lane → Lane × Option LaneReport) :
    { s.takeReports f with lanes := s.lanes, heat := s.heat, notices := s.notices } = s := by
  have h : ∀ t u : State, t.pending = u.pending → t.edges = u.edges → t.sckHigh = u.sckHigh →
      t.trackTime = u.trackTime → t.inReset = u.inReset →
      t.profileWp = u.profileWp → t.port = u.port → t.linkA = u.linkA → t.linkB = u.linkB → t.gun = u.gun →
      t.bibIndex = u.bibIndex → t.report = u.report → t.settings = u.settings → t.profile = u.profile → t.nvm = u.nvm →
      t.freeCount = u.freeCount → { t with lanes := u.lanes, heat := u.heat, notices := u.notices } = u := by
    intro t u
    cases t
    cases u
    simp only
    rintro rfl rfl rfl rfl rfl rfl rfl rfl rfl rfl rfl rfl rfl rfl rfl rfl
    rfl
  exact h _ _ (by simp [State.takeReports]) (by simp [State.takeReports]) (by simp [State.takeReports])
    (by simp [State.takeReports]) (by simp [State.takeReports]) (by simp [State.takeReports]) (by simp [State.takeReports])
    (by simp [State.takeReports]) (by simp [State.takeReports]) (by simp [State.takeReports]) (by simp [State.takeReports])
    (by simp [State.takeReports]) (by simp [State.takeReports]) (by simp [State.takeReports])
    (by simp [State.takeReports]) (by simp [State.takeReports])

end Sys2Proof.Laws
end

