-- ==== Sys2Proof/Laws/PortEdges.lean ====
section
/-! SUPPORT. The pins of the command port: what each edge does, and what the edges of whole bytes give (R174, R175, R176). -/

namespace Sys2Proof.Laws

open Sys2Proof.Machine

variable (s : State)

/-- The port counts edges: a transaction is under way and no full reset lasts (R175, R185). -/
theorem sdoDriven_iff : s.sdoDriven = true ↔ s.inReset = false ∧ s.port.phase ≠ .deselected := by
  simp [State.sdoDriven]

theorem sdoDriven_of_collecting (h : s.collecting = true) : s.sdoDriven = true := by
  obtain ⟨h1, h2⟩ := (collecting_iff s).1 h
  simp [State.sdoDriven, h1, h2]

/-! ### Single edges -/

/-- A rising edge that completes no byte of a command (R175). -/
theorem takeEdge_rise {n k : Nat} (sdi : Bool) (hd : s.sdoDriven = true) (hl : s.sckHigh = false)
    (hn : s.port.bitCount = some n) (hk : s.port.bytePos = some k) (h : n < 7 ∨ s.port.phase ≠ .collecting) :
    s.takeEdge (.sckRise sdi) = .next ({ s with sckHigh := true, port := s.port.sample sdi n k }) := by
  have hd' : State.sdoDriven { s with sckHigh := true } = true := hd
  simp only [State.takeEdge, hl, State.sckRises, hd', hn, hk, h, if_true, Bool.false_eq_true, if_false]
  rfl

/-- The rising edge that completes a byte in Collecting (R174, R176). -/
theorem takeEdge_byte {k : Nat} (sdi : Bool) (hc : s.collecting = true) (hl : s.sckHigh = false)
    (hn : s.port.bitCount = some 7) (hk : s.port.bytePos = some k) :
    s.takeEdge (.sckRise sdi) = State.byteReceived { s with sckHigh := true, port := s.port.sample sdi 7 k } := by
  have hd : State.sdoDriven { s with sckHigh := true } = true := sdoDriven_of_collecting s hc
  have hp := ((collecting_iff s).1 hc).2
  simp only [State.takeEdge, hl, State.sckRises, hd, hn, hk, hp, Bool.false_eq_true, if_false]
  rfl

/-- A falling edge with no response in progress, or within a byte position (R175). -/
theorem takeEdge_fall (hl : s.sckHigh = true)
    (h : s.sdoDriven = false ∨ s.port.response = none ∨ s.port.bitCount ≠ some 0) :
    s.takeEdge .sckFall = .next { s with sckHigh := false } := by
  simp only [State.takeEdge, hl, if_true, State.sckFalls]
  split
  · next r k h1 h2 h3 _ =>
    have h1' : s.sdoDriven = true := h1
    simp_all
  · rfl

/-- A falling edge between two byte positions of a response (R174, R181, R184). -/
theorem takeEdge_begin {r : Response} {k : Nat} (hl : s.sckHigh = true) (hd : s.sdoDriven = true)
    (hr : s.port.response = some r) (hn : s.port.bitCount = some 0) (hk : s.port.bytePos = some k) :
    s.takeEdge .sckFall = State.byteBegins { s with sckHigh := false } r k := by
  have hd' : State.sdoDriven { s with sckHigh := false } = true := hd
  simp only [State.takeEdge, hl, if_true, State.sckFalls, hd', hr, hn, hk]

/-- While SCK keeps its level there is no edge. -/
theorem takeEdge_level (sdi : Bool) :
    (s.sckHigh = true → s.takeEdge (.sckRise sdi) = .next s) ∧ (s.sckHigh = false → s.takeEdge .sckFall = .next s) := by
  constructor <;> intro h <;> simp [State.takeEdge, h]

/-- With select high, or in a full reset, only the level of SCK is followed (R185). -/
theorem takeEdge_idle (sdi : Bool) (hd : s.sdoDriven = false) (hl : s.sckHigh = false) :
    s.takeEdge (.sckRise sdi) = .next { s with sckHigh := true } := by
  have hd' : State.sdoDriven { s with sckHigh := true } = false := hd
  simp [State.takeEdge, hl, State.sckRises, hd']

/-! ### Edges in a row -/

theorem takeEdges_nil : s.takeEdges [] = .next s := rfl

theorem takeEdges_cons {e : PinEdge} {t : State} (es : List PinEdge) (h : s.takeEdge e = .next t) :
    s.takeEdges (e :: es) = t.takeEdges es := by
  simp [State.takeEdges, h]

theorem takeEdges_single (e : PinEdge) : s.takeEdges [e] = s.takeEdge e := by
  simp only [State.takeEdges]
  split
  · next t h => exact h.symm
  · rfl

theorem takeEdges_append (es fs : List PinEdge) {t : State} (h : s.takeEdges es = .next t) :
    s.takeEdges (es ++ fs) = t.takeEdges fs := by
  induction es generalizing s with
  | nil => cases h; rfl
  | cons e es ih =>
    simp only [List.cons_append, State.takeEdges] at h ⊢
    split at h
    · next u hu => exact ih u h
    · next ho => exact (ho t h).elim

/-- A bit sampled within a byte position (R175). -/
theorem sample_within (p : Port) (b : Bool) {n : Nat} (k : Nat) (h : n < 7) :
    p.sample b n k = { p with shift := p.shift.shiftConcat b, bitCount := some (n + 1), bytePos := some k } := by
  simp [Port.sample, h]

/-- A whole cycle of SCK within a byte position (R175). -/
theorem takeEdges_cycle {n k : Nat} (b : Bool) (es : List PinEdge) (hd : s.sdoDriven = true) (hl : s.sckHigh = false)
    (hn : s.port.bitCount = some n) (hk : s.port.bytePos = some k) (h : n < 7) :
    s.takeEdges (.sckRise b :: .sckFall :: es) = State.takeEdges { s with port := s.port.sample b n k } es := by
  rw [takeEdges_cons s _ (takeEdge_rise s b hd hl hn hk (.inl h)), takeEdges_cons _ es (takeEdge_fall _ rfl (.inr (.inr ?_)))]
  · congr 1
    rw [← hl]
  · simp [Port.sample, h]

/-- Eight bits shifted in leave the byte they spell. -/
theorem shift_byte (sh x : BitVec 8) :
    ((((((((sh.shiftConcat (x.getMsbD 0)).shiftConcat (x.getMsbD 1)).shiftConcat (x.getMsbD 2)).shiftConcat
      (x.getMsbD 3)).shiftConcat (x.getMsbD 4)).shiftConcat (x.getMsbD 5)).shiftConcat (x.getMsbD 6)).shiftConcat
        (x.getMsbD 7)) = x := by
  apply BitVec.eq_of_getLsbD_eq
  intro i hi
  interval_cases i <;> simp [BitVec.getMsbD]

/-- The edges of a byte: seven cycles, and the rising edge that completes it. -/
theorem byteEdges_eq (x : Byte) :
    byteEdges x =
      [.sckRise (x.getMsbD 0), .sckFall, .sckRise (x.getMsbD 1), .sckFall, .sckRise (x.getMsbD 2), .sckFall,
        .sckRise (x.getMsbD 3), .sckFall, .sckRise (x.getMsbD 4), .sckFall, .sckRise (x.getMsbD 5), .sckFall,
        .sckRise (x.getMsbD 6), .sckFall, .sckRise (x.getMsbD 7), .sckFall] := rfl

/-- Seven cycles of a byte in a transaction, before other edges (R175). -/
theorem takeEdges_seven {k : Nat} (x : Byte) (es : List PinEdge) (hd : s.sdoDriven = true) (hl : s.sckHigh = false)
    (hn : s.port.bitCount = some 0) (hk : s.port.bytePos = some k) :
    ∃ sh : BitVec 8, sh.shiftConcat (x.getMsbD 7) = x ∧
      s.takeEdges ((byteEdges x).take 14 ++ es) =
        State.takeEdges { s with port := { s.port with bitCount := some 7, bytePos := some k, shift := sh } } es := by
  refine ⟨_, shift_byte s.port.shift x, ?_⟩
  rw [byteEdges_eq]
  simp only [List.take_succ_cons, List.take_zero, List.cons_append, List.nil_append]
  rw [takeEdges_cycle s _ _ hd hl hn hk (by omega)]
  iterate 6
    rw [takeEdges_cycle _ (k := k) _ _ (by exact hd) (by exact hl) (by simp only [Port.sample]; rfl)
      (by simp [Port.sample]) (by simp)]
  simp [Port.sample]

/-- The edges of a byte in Collecting: its last rising edge completes it, with the byte in the shift register (R174, R176). -/
theorem takeEdges_byte {k : Nat} (x : Byte) (hc : s.collecting = true) (hl : s.sckHigh = false)
    (hn : s.port.bitCount = some 0) (hk : s.port.bytePos = some k) :
    s.takeEdges ((byteEdges x).dropLast) =
      State.byteReceived { s with
        sckHigh := true, port := { s.port with bitCount := some 0, bytePos := some (k + 1), shift := x } } := by
  obtain ⟨sh, hx, h⟩ := takeEdges_seven s x [.sckRise (x.getMsbD 7)] (sdoDriven_of_collecting s hc) hl hn hk
  have he : (byteEdges x).dropLast = (byteEdges x).take 14 ++ [.sckRise (x.getMsbD 7)] := rfl
  rw [he, h, takeEdges_single, takeEdge_byte _ (k := k) _ (by exact hc) (by exact hl) rfl rfl]
  simp [Port.sample, hx]

/-- Whole cycles of SCK within a byte position (R175). -/
theorem takeEdges_cycles {k : Nat} (bs : List Bool) :
    ∀ (s : State) (n : Nat),
      s.sdoDriven = true → s.sckHigh = false → s.port.bitCount = some n → s.port.bytePos = some k →
      n + bs.length ≤ 7 →
      ∃ sh, s.takeEdges (bs.flatMap fun b => [.sckRise b, .sckFall]) =
        .next { s with port := { s.port with bitCount := some (n + bs.length), bytePos := some k, shift := sh } } := by
  induction bs with
  | nil =>
    intro s n _ _ hn hk _
    refine ⟨s.port.shift, ?_⟩
    rw [← hk, List.length_nil, Nat.add_zero, ← hn]
    rfl
  | cons b bs ih =>
    intro s n hd hl hn hk h
    simp only [List.length_cons] at h
    obtain ⟨sh, e⟩ := ih { s with port := s.port.sample b n k } (n + 1) hd hl
      (by rw [sample_within _ _ _ (by omega)]) (by rw [sample_within _ _ _ (by omega)]) (by omega)
    refine ⟨sh, ?_⟩
    rw [List.flatMap_cons, List.cons_append, List.cons_append, List.nil_append,
      takeEdges_cycle s b _ hd hl hn hk (by omega), e, List.length_cons, Nat.add_assoc, Nat.add_comm 1]
    rfl

/-- A cut within a byte in Collecting leaves the port collecting, and nothing else moved but the level of SCK (R179). -/
theorem takeEdges_cut {k : Nat} (x : Byte) (m : Nat) (hm : m < 15) (hc : s.collecting = true) (hl : s.sckHigh = false)
    (hn : s.port.bitCount = some 0) (hk : s.port.bytePos = some k) :
    ∃ n sh h, s.takeEdges ((byteEdges x).take m) =
      .next { s with sckHigh := h, port := { s.port with bitCount := n, bytePos := some k, shift := sh } } := by
  have hd := sdoDriven_of_collecting s hc
  obtain ⟨sh, e⟩ := takeEdges_cycles (k := k) ((byteBits x).take (m / 2)) s 0 hd hl hn hk (by simp [byteBits]; omega)
  by_cases hp : m % 2 = 0
  · have he : (byteEdges x).take m = ((byteBits x).take (m / 2)).flatMap fun b => [.sckRise b, .sckFall] := by
      interval_cases m <;> first | rfl | omega
    exact ⟨_, sh, s.sckHigh, he ▸ e⟩
  · have he : ∃ b, (byteEdges x).take m =
        ((byteBits x).take (m / 2)).flatMap (fun b => [.sckRise b, .sckFall]) ++ [.sckRise b] := by
      interval_cases m <;> first | exact ⟨_, rfl⟩ | omega
    obtain ⟨b, he⟩ := he
    rw [he, takeEdges_append s _ _ e, takeEdges_single,
      takeEdge_rise _ (k := k) b (by exact hd) (by exact hl) rfl rfl (.inl (by simp [byteBits]; omega))]
    have h7 : 0 + ((byteBits x).take (m / 2)).length < 7 := by simp [byteBits]; omega
    exact ⟨_, _, true, by simp only [Port.sample, h7, if_true]; rfl⟩

/-! ### Whole commands -/

/-- The state as its port collects, with the bytes `done` received: at bit `n` of the next byte, SCK at level `h`. -/
def collected (done : List Byte) (h : Bool) (n : Option Nat) (sh : Byte) : State :=
  { s with
    sckHigh := h
    port := { s.port with
      bitCount := n, bytePos := some done.length, code := done.head?, argsReceived := done.head?.map fun _ => done.tail,
      shift := sh } }

/-- The state at the rising edge that completes byte `x`, before the byte acts. -/
def completing (done : List Byte) (x : Byte) : State :=
  { s with
    sckHigh := true
    port := { s.port with
      bitCount := some 0, bytePos := some (done.length + 1), code := done.head?,
      argsReceived := done.head?.map fun _ => done.tail, shift := x } }

theorem completing_bytes (done : List Byte) (x : Byte) : (completing s done x).port.bytesReceived = done ++ [x] := by
  cases done <;> simp [completing, Port.bytesReceived]

/-- A byte that takes its command (R176). -/
theorem byteReceived_taken {done : List Byte} {x : Byte} {i : Instr} (h : decodeCommand s.profileWp (done ++ [x]) = some i) :
    (completing s done x).byteReceived = exec i (completing s done x) := by
  have h' : decodeCommand (completing s done x).profileWp (completing s done x).port.bytesReceived = some i := by
    rw [completing_bytes]
    exact h
  simp only [State.byteReceived, h']

/-- A code byte that names no command (R179). -/
theorem byteReceived_unknown {x : Byte} (h : decodeCommand s.profileWp [x] = none) (hu : argumentCount x = none) :
    (completing s [] x).byteReceived = exec (.unknownCommandCode x) (completing s [] x) := by
  have hb := completing_bytes s [] x
  have h' : decodeCommand (completing s [] x).profileWp [x] = none := h
  simp only [List.nil_append] at hb
  simp only [State.byteReceived, hb, h', hu, Option.isSome_none, Bool.false_eq_true, if_false]

/-- A byte after which argument bytes are outstanding is kept (R174). -/
theorem byteReceived_kept {done : List Byte} {x : Byte} (h : decodeCommand s.profileWp (done ++ [x]) = none)
    (hu : ∀ c ∈ (done ++ [x]).head?, (argumentCount c).isSome = true) :
    (completing s done x).byteReceived = .next (collected s (done ++ [x]) true (some 0) x) := by
  have h' : decodeCommand (completing s done x).profileWp (completing s done x).port.bytesReceived = none := by
    rw [completing_bytes]
    exact h
  simp only [State.byteReceived, completing_bytes]
  cases done with
  | nil =>
    have := hu x rfl
    simp only [List.nil_append] at h ⊢
    simp [h, this, completing, collected, State.withPort]
  | cons c l =>
    have := hu c rfl
    simp only [List.cons_append] at h ⊢
    simp [h, this, completing, collected, State.withPort]

/-- The edges of one more byte while a command is collected. -/
theorem collected_byte (done : List Byte) (x sh : Byte) (hc : s.collecting = true) :
    (collected s done false (some 0) sh).takeEdges ((byteEdges x).dropLast) = (completing s done x).byteReceived := by
  rw [takeEdges_byte (collected s done false (some 0) sh) (k := done.length) x (by exact hc) rfl rfl rfl]
  rfl

/-- One more byte, kept, and other edges. -/
theorem collected_next {done : List Byte} {x sh : Byte} (es : List PinEdge) (hc : s.collecting = true)
    (hr : s.port.response = none) (h : decodeCommand s.profileWp (done ++ [x]) = none)
    (hu : ∀ c ∈ (done ++ [x]).head?, (argumentCount c).isSome = true) :
    (collected s done false (some 0) sh).takeEdges (byteEdges x ++ es) =
      (collected s (done ++ [x]) false (some 0) x).takeEdges es := by
  have he : byteEdges x ++ es = (byteEdges x).dropLast ++ (.sckFall :: es) := rfl
  have h1 := collected_byte s done x sh hc
  rw [byteReceived_kept s h hu] at h1
  rw [he, takeEdges_append _ _ _ h1,
    takeEdges_cons _ es (takeEdge_fall (collected s (done ++ [x]) true (some 0) x) rfl (.inr (.inl hr)))]
  rfl

/-- Every byte before the last of a command is kept. -/
def keepsPrefixes (wp : Bool) (bytes : List Byte) : Prop :=
  ∀ done x rest, bytes = done ++ x :: rest → rest ≠ [] →
    decodeCommand wp (done ++ [x]) = none ∧ ∀ c ∈ (done ++ [x]).head?, (argumentCount c).isSome = true

/-- The edges of a command's bytes take the command at the last rising edge (R176). -/
theorem collected_command {i : Instr} (hc : s.collecting = true) (hr : s.port.response = none) (rest : List Byte) :
    ∀ (done : List Byte) (sh : Byte), rest ≠ [] → keepsPrefixes s.profileWp (done ++ rest) →
      decodeCommand s.profileWp (done ++ rest) = some i →
      ∃ l x, done ++ rest = l ++ [x] ∧
        (collected s done false (some 0) sh).takeEdges ((rest.flatMap byteEdges).dropLast) = exec i (completing s l x) := by
  induction rest with
  | nil => exact fun _ _ h => absurd rfl h
  | cons x rest ih =>
    intro done sh _ hk hd
    cases rest with
    | nil =>
      refine ⟨done, x, rfl, ?_⟩
      simp only [List.flatMap_cons, List.flatMap_nil, List.append_nil]
      rw [collected_byte s done x sh hc, byteReceived_taken s hd]
    | cons y rest =>
      obtain ⟨h1, h2⟩ := hk done x (y :: rest) rfl (by simp)
      obtain ⟨l, z, hl, h⟩ := ih (done ++ [x]) x (by simp) (by simpa using hk) (by simpa using hd)
      refine ⟨l, z, by simpa using hl, ?_⟩
      have he : ((x :: y :: rest).flatMap byteEdges).dropLast = byteEdges x ++ (((y :: rest).flatMap byteEdges).dropLast) := by
        rw [List.flatMap_cons, List.dropLast_append_of_ne_nil]
        simp [byteEdges_eq]
      rw [he, collected_next s _ hc hr h1 h2, h]

/-- A transaction cut before the last rising edge of its command leaves the port collecting (R179). -/
theorem collected_cut (hc : s.collecting = true) (hr : s.port.response = none) (rest : List Byte) :
    ∀ (done : List Byte) (sh : Byte) (m : Nat), keepsPrefixes s.profileWp (done ++ rest) → m + 1 < 16 * rest.length →
      ∃ l h n x, (collected s done false (some 0) sh).takeEdges ((rest.flatMap byteEdges).take m) =
        .next (collected s l h n x) := by
  induction rest with
  | nil => exact fun _ _ _ _ h => absurd h (by simp)
  | cons x rest ih =>
    intro done sh m hk hm
    have hlen : (byteEdges x).length = 16 := rfl
    by_cases h15 : m < 15
    · obtain ⟨n, b, h, e⟩ := takeEdges_cut (collected s done false (some 0) sh) (k := done.length) x m h15
        (by exact hc) rfl rfl rfl
      refine ⟨done, h, n, b, ?_⟩
      rw [List.flatMap_cons, List.take_append_of_le_length (by omega), e]
      rfl
    · have hne : rest ≠ [] := by
        rintro rfl
        simp at hm
        omega
      obtain ⟨h1, h2⟩ := hk done x rest rfl hne
      by_cases h16 : m < 16
      · have : m = 15 := by omega
        subst this
        refine ⟨done ++ [x], true, some 0, x, ?_⟩
        have he : ((x :: rest).flatMap byteEdges).take 15 = (byteEdges x).dropLast := by
          rw [List.flatMap_cons, List.take_append_of_le_length (by omega)]
          rfl
        rw [he, collected_byte s done x sh hc, byteReceived_kept s h1 h2]
      · obtain ⟨l, h, n, b, e⟩ := ih (done ++ [x]) x (m - 16) (by simpa using hk) (by simp at hm ⊢; omega)
        refine ⟨l, h, n, b, ?_⟩
        have he : ((x :: rest).flatMap byteEdges).take m = byteEdges x ++ ((rest.flatMap byteEdges).take (m - 16)) := by
          rw [List.flatMap_cons, List.take_append, hlen, List.take_of_length_le (by omega)]
        rw [he, collected_next s _ hc hr h1 h2, e]

/-- One row of a decoder: what holds of its command, or of a later row's. -/
theorem decodeRow_elim {p P : Prop} [Decidable p] {i j : Instr} {o : Option Instr} (hi : p → P)
    (ho : o = some j → P) (h : (if p then some i else o) = some j) : P := by
  by_cases hp : p
  · exact hi hp
  · rw [if_neg hp] at h
    exact ho h

/-- Bytes that decode hold exactly the argument bytes that their code calls for (Table 12-2). -/
theorem decodeCommand_count {wp : Bool} {code : Byte} {args : List Byte} {i : Instr}
    (h : decodeCommand wp (code :: args) = some i) : argumentCount code = some args.length := by
  rcases args with _ | ⟨b, _ | ⟨c, _ | ⟨d, _ | ⟨e, l⟩⟩⟩⟩ <;> revert h <;>
    (repeat' refine decodeRow_elim (fun hc => hc ▸ rfl) ?_) <;> (intro h; cases h)

/-- A command has the argument bytes that its code calls for (Table 12-2). -/
theorem argumentCount_code {i : Instr} {code : Byte} (h : i.code = some code) :
    argumentCount code = some i.argumentBytes.length := by
  cases i <;> first | (injection h with h; subst h; rfl) | (cases h)

/-- Nothing before the last byte of a command decodes, and its code calls for arguments (R174, R176). -/
theorem encode_keepsPrefixes {wp : Bool} {i : Instr} {bytes : List Byte} (h : encodeCommand i = some bytes) :
    keepsPrefixes wp bytes := by
  intro done x rest he hr
  unfold encodeCommand at h
  rcases hk : i.code with _ | code
  · simp [hk] at h
  · have hb : code :: i.argumentBytes = done ++ x :: rest := by
      rw [hk, Option.map_some, Option.some.injEq] at h
      rw [h, he]
    have hn := argumentCount_code hk
    rcases done with _ | ⟨c, l⟩
    · obtain ⟨rfl, ha⟩ := List.cons.inj hb
      refine ⟨?_, by simp [hn]⟩
      by_contra hd
      obtain ⟨j, hj⟩ := Option.ne_none_iff_exists'.1 hd
      have := decodeCommand_count hj
      rw [hn, ha] at this
      exact hr (by simpa using this)
    · obtain ⟨rfl, ha⟩ := List.cons.inj hb
      refine ⟨?_, by simp [hn]⟩
      by_contra hd
      obtain ⟨j, hj⟩ := Option.ne_none_iff_exists'.1 hd
      have := decodeCommand_count hj
      rw [hn, ha] at this
      exact hr (by simpa using this)

end Sys2Proof.Laws
end

