-- ==== Sys2Proof/Laws/Receive.lean ====
section
/-! SUPPORT. How each port command is taken: what exec is for it, what its answer is, how its arguments parse; and the stamps,
timers and index lookups that the statements spell out. -/

namespace Sys2Proof.Laws

open Sys2Proof.Machine

/-! ### exec of a port command is its owner's operation, received (R176) -/

theorem exec_readStatus (s : State) : exec .readStatus s = s.receive .readStatus ownReadStatus := rfl
theorem exec_resetEnable (s : State) : exec .resetEnable s = s.receive .resetEnable ownResetEnable := rfl
theorem exec_softReset (s : State) : exec .softReset s = s.receive .softReset ownSoftReset := rfl
theorem exec_takeNotice (s : State) : exec .takeNotice s = s.receive .takeNotice ownTakeNotice := rfl
theorem exec_noticeDone (ceiling : Byte) (s : State) :
    exec (.noticeDone ceiling) s = s.receive (.noticeDone ceiling) (ownNoticeDone ceiling) := rfl
theorem exec_clearNotice (source : Byte) (s : State) :
    exec (.clearNotice source) s = s.receive (.clearNotice source) (ownClearNotice source) := rfl
theorem exec_setNoticeLevel (source : Byte) (level : Byte) (s : State) :
    exec (.setNoticeLevel source level) s = s.receive (.setNoticeLevel source level) (ownSetNoticeLevel source level) := rfl
theorem exec_readNotices (s : State) : exec .readNotices s = s.receive .readNotices ownReadNotices := rfl
theorem exec_readSetting (key : Byte) (s : State) :
    exec (.readSetting key) s = s.receive (.readSetting key) (ownReadSetting key) := rfl
theorem exec_writeSetting (key : Byte) (value : BitVec 16) (s : State) :
    exec (.writeSetting key value) s = s.receive (.writeSetting key value) (ownWriteSetting key value) := rfl
theorem exec_saveProfile (wp : Bool) (s : State) :
    exec (.saveProfile wp) s = s.receive (.saveProfile wp) (ownSaveProfile wp) := rfl
theorem exec_loadProfile (s : State) : exec .loadProfile s = s.receive .loadProfile ownLoadProfile := rfl
theorem exec_openHeat (number : BitVec 16) (policy : Byte) (s : State) :
    exec (.openHeat number policy) s = s.receive (.openHeat number policy) (ownOpenHeat number policy) := rfl
theorem exec_closeHeat (s : State) : exec .closeHeat s = s.receive .closeHeat ownCloseHeat := rfl
theorem exec_enterLane (lane : Byte) (bib : BitVec 16) (s : State) :
    exec (.enterLane lane bib) s = s.receive (.enterLane lane bib) (ownEnterLane lane bib) := rfl
theorem exec_vacateLane (lane : Byte) (s : State) :
    exec (.vacateLane lane) s = s.receive (.vacateLane lane) (ownVacateLane lane) := rfl
theorem exec_withdrawLane (lane : Byte) (s : State) :
    exec (.withdrawLane lane) s = s.receive (.withdrawLane lane) (ownWithdrawLane lane) := rfl
theorem exec_findBib (bib : BitVec 16) (s : State) :
    exec (.findBib bib) s = s.receive (.findBib bib) (ownFindBib bib) := rfl
theorem exec_readLane (lane : Byte) (s : State) :
    exec (.readLane lane) s = s.receive (.readLane lane) (ownReadLane lane) := rfl
theorem exec_readRoster (start : Byte) (s : State) :
    exec (.readRoster start) s = s.receive (.readRoster start) (ownReadRoster start) := rfl
theorem exec_readHeat (s : State) : exec .readHeat s = s.receive .readHeat ownReadHeat := rfl
theorem exec_readAttempt (s : State) : exec .readAttempt s = s.receive .readAttempt ownReadAttempt := rfl
theorem exec_callMarks (s : State) : exec .callMarks s = s.receive .callMarks ownCallMarks := rfl
theorem exec_callSet (s : State) : exec .callSet s = s.receive .callSet ownCallSet := rfl
theorem exec_standUp (s : State) : exec .standUp s = s.receive .standUp ownStandUp := rfl
theorem exec_recall (s : State) : exec .recall s = s.receive .recall ownRecall := rfl
theorem exec_imposeCharge (lane : Byte) (effect : Byte) (s : State) :
    exec (.imposeCharge lane effect) s = s.receive (.imposeCharge lane effect) (ownImposeCharge lane effect) := rfl
theorem exec_rescindCharge (lane : Byte) (s : State) :
    exec (.rescindCharge lane) s = s.receive (.rescindCharge lane) (ownRescindCharge lane) := rfl
theorem exec_rescindFieldWarning (s : State) :
    exec .rescindFieldWarning s = s.receive .rescindFieldWarning ownRescindFieldWarning := rfl
theorem exec_readLink (link : Byte) (clear : Byte) (s : State) :
    exec (.readLink link clear) s = s.receive (.readLink link clear) (ownReadLink link clear) := rfl

/-- A command that is collected is answered with what its owner gives. -/
theorem receive_eq {i : Instr} {own : State → Owned} {s : State} {k : Byte} {n : Nat} {o : Owned} (hc : s.collecting = true)
    (hk : i.code = some k) (hn : i.argumentBytes.length = n) (ho : own s = o) :
    s.receive i own = .next (State.answered k n o) := by
  unfold State.receive
  rw [hk]
  simp [hc, ho, hn]

/-! ### Arguments -/

theorem parseLane_some {x : Byte} {i : LaneNo} (h : x.toNat = laneNumber i) : parseLane x = some i := by
  unfold laneNumber at h
  have := i.isLt
  unfold parseLane
  rw [dif_pos (show 1 ≤ x.toNat ∧ x.toNat ≤ 10 by omega)]
  congr 1
  apply Fin.ext
  simp
  omega

theorem parseLane_none {x : Byte} (h : x.toNat = 0 ∨ 10 < x.toNat) : parseLane x = none := by
  unfold parseLane
  rw [dif_neg (by omega)]

theorem parseBib_some {x : BitVec 16} (h : 1 ≤ x.toNat) (k : x.toNat ≤ 9999) : parseBib x = some x.toNat := by
  unfold parseBib
  rw [if_pos ⟨h, k⟩]

theorem parseBib_none {x : BitVec 16} (h : x.toNat = 0 ∨ 9999 < x.toNat) : parseBib x = none := by
  unfold parseBib
  rw [if_neg (by omega)]

theorem parseKey_some {x : Byte} {k : Key} (h : x.toNat = k.val + 1) : parseKey x = some k := by
  have := k.isLt
  unfold parseKey
  rw [dif_pos (show 1 ≤ x.toNat ∧ x.toNat ≤ 40 by omega)]
  congr 1
  apply Fin.ext
  simp
  omega

theorem parseKey_none {x : Byte} (h : x.toNat = 0 ∨ 40 < x.toNat) : parseKey x = none := by
  unfold parseKey
  rw [dif_neg (by omega)]

/-- A code byte has an argument count exactly when it is some command's code (Table 12-2). -/
theorem argumentCount_isSome (c : Byte) : (argumentCount c).isSome = true ↔ ∃ i : Instr, i.code = some c := by
  constructor
  · intro h
    by_contra hn
    have no : ∀ i : Instr, i.code ≠ some c := fun i hi => hn ⟨i, hi⟩
    have := no .readStatus
    have := no .resetEnable
    have := no .softReset
    have := no .takeNotice
    have := no (.noticeDone 0)
    have := no (.clearNotice 0)
    have := no (.setNoticeLevel 0 0)
    have := no .readNotices
    have := no (.readSetting 0)
    have := no (.writeSetting 0 0)
    have := no (.saveProfile true)
    have := no .loadProfile
    have := no (.openHeat 0 0)
    have := no .closeHeat
    have := no (.enterLane 0 0)
    have := no (.vacateLane 0)
    have := no (.withdrawLane 0)
    have := no (.findBib 0)
    have := no (.readLane 0)
    have := no (.readRoster 0)
    have := no .readHeat
    have := no .readAttempt
    have := no .callMarks
    have := no .callSet
    have := no .standUp
    have := no .recall
    have := no (.imposeCharge 0 0)
    have := no (.rescindCharge 0)
    have := no .rescindFieldWarning
    have := no (.readLink 0 0)
    simp only [Instr.code, ne_eq, Option.some.injEq, eq_comm (b := c)] at *
    clear hn no
    unfold argumentCount at h
    split_ifs at h <;> (try simp at h) <;> simp_all
  · rintro ⟨i, h⟩
    cases i <;> simp [Instr.code] at h <;> subst h <;> decide

/-! ### Stamps and timers -/

theorem stampDiff_ofInt (t : Stamp) (x : Int) (h0 : 0 ≤ x) (h1 : x < 2147483648) :
    stampDiff (t + BitVec.ofInt 32 x) t = x := by
  unfold stampDiff
  have : t + BitVec.ofInt 32 x - t = BitVec.ofInt 32 x := by rw [add_comm, BitVec.add_sub_cancel]
  rw [this, BitVec.toInt_ofInt, Int.bmod_def]; omega

theorem timerDue_iff (o : Option Stamp) (now : Stamp) :
    timerDue o now = true ↔ ∃ d, o = some d ∧ 0 ≤ stampDiff now d := by
  cases o <;> simp [timerDue, reached]

/-! ### The bib index (R9) -/

theorem indexFind_isSome (b : Nat) (l : List (Nat × LaneNo)) : (indexFind b l).isSome = true ↔ ∃ j, (b, j) ∈ l := by
  simp [indexFind]

/-- A bib that the index does not hold takes its place between the smaller and the larger ones. -/
theorem indexInsert_eq (b : Nat) (i : LaneNo) : ∀ l : List (Nat × LaneNo), l.Pairwise (fun p q => p.1 < q.1) →
    (∀ j, (b, j) ∉ l) →
    indexInsert b i l = l.filter (fun p => p.1 < b) ++ (b, i) :: l.filter (fun p => b < p.1)
  | [], _, _ => rfl
  | (c, j) :: rest, hs, hn => by
    have hs' := List.pairwise_cons.1 hs
    have hne : c ≠ b := fun h => hn j (by simp [h])
    unfold indexInsert
    by_cases h : b < c
    · rw [if_pos h]
      have h1 : rest.filter (fun p => decide (p.1 < b)) = [] :=
        List.filter_eq_nil_iff.2 (fun p hp => by have := hs'.1 p hp; simp at this ⊢; omega)
      have h2 : rest.filter (fun p => decide (b < p.1)) = rest :=
        List.filter_eq_self.2 (fun p hp => by have := hs'.1 p hp; simp at this ⊢; omega)
      simp [h, h1, h2, show ¬ c < b by omega]
    · rw [if_neg h, indexInsert_eq b i rest hs'.2 (fun j hj => hn j (by simp [hj]))]
      simp [h, show c < b by omega]

end Sys2Proof.Laws
end

