-- ==== Sys2Proof/Laws/Settings.lean ====
section
/-! SUPPORT. The settings: what a write leaves, and that a write, a load and the defaults leave legal settings (R186, R188). -/

namespace Sys2Proof.Laws

open Sys2Proof.Machine

variable (c : Settings)

/-- The value written, and every other value. -/
@[simp] theorem put_vals (k : Key) (v j : Nat) (h : j < 40) :
    (c.put k v).vals[j] = if (⟨j, h⟩ : Key) = k then v else c.vals[j] := by
  simp [Settings.put]

/-- A clamped value lies within its range (R187). -/
theorem clampTo_range (k : Key) (v : Nat) :
    settingTable[k].lo ≤ Settings.clampTo k v ∧ Settings.clampTo k v ≤ settingTable[k].hi := by
  have h : ∀ k : Key, settingTable[k].lo ≤ settingTable[k].hi := by decide
  have := h k
  unfold Settings.clampTo
  omega

/-- What the checks of R188 say of a set of settings. -/
structure LegalSettings (c : Settings) : Prop where
  range : ∀ k : Key, settingTable[k].lo ≤ c.vals[k] ∧ c.vals[k] ≤ settingTable[k].hi
  links : ∀ l : LinkId, c.first l ≠ 0 → c.first l ≤ c.last l ∧ c.last l ≤ c.first l + 5
  apart : c.first .a ≠ 0 → c.first .b ≠ 0 → c.last .a < c.first .b ∨ c.last .b < c.first .a

theorem ordered_iff (l : LinkId) : c.ordered l = true ↔ (c.first l ≠ 0 → c.first l ≤ c.last l) := by
  by_cases h : c.first l = 0 <;> simp [Settings.ordered, Settings.enabled, h]

theorem spanFits_iff (l : LinkId) : c.spanFits l = true ↔ (c.first l ≠ 0 → c.last l ≤ c.first l + 5) := by
  by_cases h : c.first l = 0 <;> simp [Settings.spanFits, Settings.enabled, h]

theorem apart_iff :
    c.apart = true ↔ (c.first .a ≠ 0 → c.first .b ≠ 0 → c.last .a < c.first .b ∨ c.last .b < c.first .a) := by
  by_cases h : c.first .a = 0 <;> by_cases h' : c.first .b = 0 <;> simp [Settings.apart, Settings.enabled, h, h']

theorem legal_iff : c.legal = true ↔ LegalSettings c := by
  simp only [Settings.legal, Settings.rangesValid, Bool.and_eq_true, Settings.inRange, decide_eq_true_eq, ordered_iff,
    spanFits_iff, apart_iff]
  constructor
  · rintro ⟨⟨⟨hr, ⟨ha, hb⟩, hp⟩, sa⟩, sb⟩
    exact ⟨hr, fun l h => by cases l <;> [exact ⟨ha h, sa h⟩; exact ⟨hb h, sb h⟩], hp⟩
  · rintro ⟨hr, hl, hp⟩
    exact ⟨⟨⟨hr, ⟨fun h => (hl .a h).1, fun h => (hl .b h).1⟩, hp⟩, fun h => (hl .a h).2⟩, fun h => (hl .b h).2⟩

/-- The defaults are legal. -/
theorem defaults_legal : LegalSettings Settings.defaults := by
  exact ⟨by decide +kernel, fun l => by cases l <;> decide +kernel, by decide +kernel⟩

/-- The keys of a link's range. -/
theorem rangeLink_some {k : Key} {l : LinkId} (h : Settings.rangeLink k = some l) :
    (l = .a ∧ (k = 14 ∨ k = 15)) ∨ (l = .b ∧ (k = 16 ∨ k = 17)) := by
  unfold Settings.rangeLink at h
  split at h
  · next hk => exact .inl ⟨(Option.some.inj h).symm, hk⟩
  · split at h
    · next hk => exact .inr ⟨(Option.some.inj h).symm, hk⟩
    · contradiction

theorem rangeLink_none {k : Key} (h : Settings.rangeLink k = none) : k ≠ 14 ∧ k ≠ 15 ∧ k ≠ 16 ∧ k ≠ 17 := by
  unfold Settings.rangeLink at h
  split at h
  · contradiction
  · next h1 =>
    split at h
    · contradiction
    · next h2 => simp_all [not_or]

/-- The link range values after a write of one value. -/
theorem put_first (k : Key) (v : Nat) (l : LinkId) :
    (c.put k v).first l = if k = (match l with | .a => 14 | .b => 16) then v else c.first l := by
  cases l <;> simp [Settings.first, eq_comm]

theorem put_last (k : Key) (v : Nat) (l : LinkId) :
    (c.put k v).last l = if k = Settings.lastKey l then v else c.last l := by
  cases l <;> simp [Settings.last, Settings.lastKey, eq_comm] <;> rfl

/-- A clamp of the span keeps the first lane and brings the last lane within six lanes (R188). -/
theorem clampSpan_first (l m : LinkId) : (c.clampSpan l).first m = c.first m := by
  unfold Settings.clampSpan
  split
  · rfl
  · rw [put_first]
    cases l <;> cases m <;> simp [Settings.lastKey]

theorem clampSpan_last (l m : LinkId) :
    (c.clampSpan l).last m = if m = l ∧ c.spanFits l = false then c.first l + 5 else c.last m := by
  unfold Settings.clampSpan
  split
  · next h => simp [h]
  · next h =>
    rw [put_last]
    cases l <;> cases m <;> simp_all [Settings.lastKey]

/-- Values within range stay so when a clamped value is written, and when a span is clamped. -/
theorem put_range {k : Key} {v : Nat}
    (hr : ∀ k : Key, settingTable[k].lo ≤ c.vals[k] ∧ c.vals[k] ≤ settingTable[k].hi)
    (hv : settingTable[k].lo ≤ v ∧ v ≤ settingTable[k].hi) (j : Key) :
    settingTable[j].lo ≤ (c.put k v).vals[j] ∧ (c.put k v).vals[j] ≤ settingTable[j].hi := by
  have : (c.put k v).vals[j] = if j = k then v else c.vals[j] := by simp
  rw [this]
  split
  · next h =>
    subst h
    exact hv
  · exact hr j

theorem clampSpan_range (l : LinkId)
    (hr : ∀ k : Key, settingTable[k].lo ≤ c.vals[k] ∧ c.vals[k] ≤ settingTable[k].hi) (j : Key) :
    settingTable[j].lo ≤ (c.clampSpan l).vals[j] ∧ (c.clampSpan l).vals[j] ≤ settingTable[j].hi := by
  unfold Settings.clampSpan
  split
  · exact hr j
  · next hs =>
    refine put_range c hr ?_ j
    have hlast : c.last l ≤ 10 := by
      cases l
      · exact (hr 15).2
      · exact (hr 17).2
    have hspan : ¬ (c.first l ≠ 0 → c.last l ≤ c.first l + 5) := by
      rw [← spanFits_iff]
      exact hs
    rcases l with _ | _
    · exact ⟨Nat.zero_le _, show c.first .a + 5 ≤ 10 by omega⟩
    · exact ⟨Nat.zero_le _, show c.first .b + 5 ≤ 10 by omega⟩

/-- A write that is taken leaves legal settings (R186, R187, R188). -/
theorem written_legal {k : Key} {v : Nat} (h : LegalSettings c) (hr : c.writeRefused k v = false) :
    LegalSettings (c.written k v) := by
  have hcl := put_range c h.range (clampTo_range k v)
  unfold Settings.writeRefused at hr
  rcases hk : Settings.rangeLink k with _ | l
  · obtain ⟨h1, h2, h3, h4⟩ := rangeLink_none hk
    have hw : c.written k v = c.put k (Settings.clampTo k v) := by simp [Settings.written, hk]
    have hf : ∀ l, (c.put k (Settings.clampTo k v)).first l = c.first l := by
      intro l
      rw [put_first]
      cases l <;> simp_all
    have hl : ∀ l, (c.put k (Settings.clampTo k v)).last l = c.last l := by
      intro l
      rw [put_last]
      cases l <;> simp_all [Settings.lastKey]
    rw [hw]
    refine ⟨hcl, fun l => ?_, ?_⟩
    · rw [hf, hl]
      exact h.links l
    · rw [hf, hf, hl, hl]
      exact h.apart
  · have hw : c.written k v = (c.put k (Settings.clampTo k v)).clampSpan l := by simp [Settings.written, hk]
    have hv : (c.written k v).rangesValid = true := by simpa [hk] using hr
    simp only [Settings.rangesValid, Bool.and_eq_true, ordered_iff, apart_iff] at hv
    obtain ⟨⟨ha, hb⟩, hp⟩ := hv
    have hspan : ∀ m, (c.written k v).first m ≠ 0 → (c.written k v).last m ≤ (c.written k v).first m + 5 := by
      intro m
      rw [hw, clampSpan_first, clampSpan_last]
      by_cases hm : m = l
      · subst hm
        by_cases hs : (c.put k (Settings.clampTo k v)).spanFits m = true
        · simpa [hs] using (spanFits_iff _ m).1 hs
        · simp [hs]
      · have hne : ¬ (m = l ∧ (c.put k (Settings.clampTo k v)).spanFits l = false) := fun h => hm h.1
        rw [if_neg hne, put_first, put_last]
        have hkl := rangeLink_some hk
        have := (h.links m)
        cases l <;> cases m <;> simp_all [Settings.lastKey] <;> (rcases hkl with rfl | rfl <;> simp_all)
    refine ⟨?_, fun m hm => ⟨?_, hspan m hm⟩, hp⟩
    · rw [hw]
      exact clampSpan_range _ l hcl
    · cases m
      · exact ha hm
      · exact hb hm

/-- The keys writable in ROSTER decide neither closure nor service (R186, Table 11-1 note 2). -/
theorem roster_keys {k : Key} (h : settingTable[k].inRoster = true) : k.val < 14 := by
  revert h
  revert k
  decide

end Sys2Proof.Laws
end

