-- ==== Sys2Proof/Laws/Taken.lean ====
section
/-! SUPPORT. What a taken port command leaves around its owner's effect: time, the reset, what waits, and the port but for its
answer (R176, R183). -/

namespace Sys2Proof.Laws

open Sys2Proof.Machine

/-- What an owner leaves of the state around it: time, reset, what waits, SCK and the port, but that SOFT RESET may arm a reset
(R184). -/
structure OwnerLeaves (k : Byte) (s : State) (o : Owned) : Prop where
  trackTime : o.1.trackTime = s.trackTime
  inReset : o.1.inReset = s.inReset
  sckHigh : o.1.sckHigh = s.sckHigh
  pending : o.1.pending = s.pending
  edges : o.1.edges = s.edges
  port : o.1.port = s.port ∨
    k = 0x03 ∧ o.2 = Answer.ok ∧ s.port.latch = true ∧ o.1.port = { s.port with softArmed := true }

/-- An answer with nothing changed. -/
theorem OwnerLeaves.same (k : Byte) (s : State) (a : Answer) : OwnerLeaves k s (s, a) := ⟨rfl, rfl, rfl, rfl, rfl, .inl rfl⟩

/-- An effect that leaves the port alone. -/
theorem OwnerLeaves.of {k : Byte} {s t : State} {a : Answer} (h1 : t.trackTime = s.trackTime) (h2 : t.inReset = s.inReset)
    (h3 : t.sckHigh = s.sckHigh) (h4 : t.pending = s.pending) (h5 : t.edges = s.edges) (h6 : t.port = s.port) :
    OwnerLeaves k s (t, a) :=
  ⟨h1, h2, h3, h4, h5, .inl h6⟩

/-! One lemma for each owner. -/

theorem ownReadStatus_leaves (s : State) : OwnerLeaves 0x01 s (ownReadStatus s) := .same _ _ _
theorem ownResetEnable_leaves (s : State) : OwnerLeaves 0x02 s (ownResetEnable s) := .same _ _ _
theorem ownSoftReset_leaves (s : State) : OwnerLeaves 0x03 s (ownSoftReset s) := by
  unfold ownSoftReset
  split
  · exact .same _ _ _
  · next hl =>
    split
    · exact .same _ _ _
    · exact ⟨rfl, rfl, rfl, rfl, rfl, .inr ⟨rfl, rfl, by simpa using hl, rfl⟩⟩
theorem ownTakeNotice_leaves (s : State) : OwnerLeaves 0x10 s (ownTakeNotice s) := by
  unfold ownTakeNotice
  (repeat' split) <;> first | exact .same _ _ _ | exact .of (by simp) (by simp) (by simp) (by simp) (by simp) (by simp)
theorem ownNoticeDone_leaves (ceiling : Byte) (s : State) :
    OwnerLeaves 0x11 s (ownNoticeDone ceiling s) := .of rfl rfl rfl rfl rfl rfl
theorem ownClearNotice_leaves (source : Byte) (s : State) : OwnerLeaves 0x12 s (ownClearNotice source s) := by
  unfold ownClearNotice
  (repeat' split) <;> first | exact .same _ _ _ | exact .of rfl rfl rfl rfl rfl rfl
theorem ownSetNoticeLevel_leaves (source level : Byte) (s : State) :
    OwnerLeaves 0x13 s (ownSetNoticeLevel source level s) := by
  unfold ownSetNoticeLevel
  (repeat' split) <;> first | exact .same _ _ _ | exact .of rfl rfl rfl rfl rfl rfl
theorem ownReadNotices_leaves (s : State) : OwnerLeaves 0x14 s (ownReadNotices s) := .same _ _ _
theorem ownReadSetting_leaves (key : Byte) (s : State) : OwnerLeaves 0x20 s (ownReadSetting key s) := by
  unfold ownReadSetting
  split <;> exact .same _ _ _
theorem ownWriteSetting_leaves (key : Byte) (value : BitVec 16) (s : State) :
    OwnerLeaves 0x21 s (ownWriteSetting key value s) := by
  unfold ownWriteSetting
  (repeat' split) <;> first | exact .same _ _ _ | exact .of rfl rfl rfl rfl rfl rfl
theorem ownSaveProfile_leaves (wp : Bool) (s : State) : OwnerLeaves 0x22 s (ownSaveProfile wp s) := by
  unfold ownSaveProfile
  dsimp only
  (repeat' split) <;> first | exact .same _ _ _ | exact .of rfl rfl rfl rfl rfl rfl
theorem ownLoadProfile_leaves (s : State) : OwnerLeaves 0x23 s (ownLoadProfile s) := by
  unfold ownLoadProfile
  (repeat' split) <;> first | exact .same _ _ _ | exact .of (by simp) (by simp) (by simp) (by simp) (by simp) (by simp)
theorem ownOpenHeat_leaves (number : BitVec 16) (policy : Byte) (s : State) :
    OwnerLeaves 0x30 s (ownOpenHeat number policy s) := by
  unfold ownOpenHeat
  (repeat' split) <;> first | exact .same _ _ _ | exact .of rfl rfl rfl rfl rfl rfl
theorem ownCloseHeat_leaves (s : State) : OwnerLeaves 0x31 s (ownCloseHeat s) := by
  unfold ownCloseHeat
  (repeat' split) <;> first | exact .same _ _ _ | exact .of rfl rfl rfl rfl rfl rfl
theorem ownEnterLane_leaves (lane : Byte) (bib : BitVec 16) (s : State) :
    OwnerLeaves 0x32 s (ownEnterLane lane bib s) := by
  unfold ownEnterLane
  (repeat' split) <;> first | exact .same _ _ _ | exact .of rfl rfl rfl rfl rfl rfl
theorem ownVacateLane_leaves (lane : Byte) (s : State) : OwnerLeaves 0x33 s (ownVacateLane lane s) := by
  unfold ownVacateLane
  (repeat' split) <;> first | exact .same _ _ _ | exact .of rfl rfl rfl rfl rfl rfl
theorem ownWithdrawLane_leaves (lane : Byte) (s : State) : OwnerLeaves 0x34 s (ownWithdrawLane lane s) := by
  unfold ownWithdrawLane
  (repeat' split) <;> first | exact .same _ _ _ | exact .of rfl rfl rfl rfl rfl rfl
theorem ownFindBib_leaves (bib : BitVec 16) (s : State) : OwnerLeaves 0x35 s (ownFindBib bib s) := by
  unfold ownFindBib
  (repeat' split) <;> exact .same _ _ _
theorem ownReadLane_leaves (lane : Byte) (s : State) : OwnerLeaves 0x36 s (ownReadLane lane s) := by
  unfold ownReadLane
  split <;> exact .same _ _ _
theorem ownReadRoster_leaves (start : Byte) (s : State) : OwnerLeaves 0x37 s (ownReadRoster start s) := by
  unfold ownReadRoster
  split <;> exact .same _ _ _
theorem ownReadHeat_leaves (s : State) : OwnerLeaves 0x38 s (ownReadHeat s) := .same _ _ _
theorem ownReadAttempt_leaves (s : State) : OwnerLeaves 0x39 s (ownReadAttempt s) := by
  unfold ownReadAttempt
  split <;> exact .same _ _ _
theorem ownCallMarks_leaves (s : State) : OwnerLeaves 0x40 s (ownCallMarks s) := by
  unfold ownCallMarks
  (repeat' split) <;> first | exact .same _ _ _ | exact .of rfl rfl rfl rfl rfl rfl
theorem ownCallSet_leaves (s : State) : OwnerLeaves 0x41 s (ownCallSet s) := by
  unfold ownCallSet
  (repeat' split) <;> first | exact .same _ _ _ | exact .of (by simp) (by simp) (by simp) (by simp) (by simp) (by simp)
theorem ownStandUp_leaves (s : State) : OwnerLeaves 0x42 s (ownStandUp s) := by
  unfold ownStandUp
  (repeat' split) <;> first | exact .same _ _ _ | exact .of (by simp) (by simp) (by simp) (by simp) (by simp) (by simp)
theorem ownRecall_leaves (s : State) : OwnerLeaves 0x43 s (ownRecall s) := by
  unfold ownRecall
  (repeat' split) <;> first | exact .same _ _ _ | exact .of (by simp) (by simp) (by simp) (by simp) (by simp) (by simp)
theorem ownImposeCharge_leaves (lane effect : Byte) (s : State) :
    OwnerLeaves 0x50 s (ownImposeCharge lane effect s) := by
  unfold ownImposeCharge
  (repeat' split) <;> first | exact .same _ _ _ | exact .of rfl rfl rfl rfl rfl rfl
theorem ownRescindCharge_leaves (lane : Byte) (s : State) : OwnerLeaves 0x51 s (ownRescindCharge lane s) := by
  unfold ownRescindCharge
  (repeat' split) <;> first | exact .same _ _ _ | exact .of rfl rfl rfl rfl rfl rfl
theorem ownRescindFieldWarning_leaves (s : State) : OwnerLeaves 0x52 s (ownRescindFieldWarning s) := by
  unfold ownRescindFieldWarning
  (repeat' split) <;> first | exact .same _ _ _ | exact .of rfl rfl rfl rfl rfl rfl
theorem ownReadLink_leaves (link clear : Byte) (s : State) : OwnerLeaves 0x60 s (ownReadLink link clear s) := by
  unfold ownReadLink
  (repeat' split) <;> first | exact .same _ _ _ | exact .of (by simp) (by simp) (by simp) (by simp) (by simp) (by simp)

/-- A collected port command is taken with its owner's answer, and the owner leaves the state around it (R176, R183). -/
theorem exec_taken {i : Instr} {k : Byte} {s : State} (hk : i.code = some k) (hc : s.collecting = true) :
    ∃ o, exec i s = .next (State.answered k i.argumentBytes.length o) ∧ OwnerLeaves k s o := by
  cases i <;> first | (cases hk; done) | (injection hk with hk; subst hk)
  case readStatus => exact ⟨_, receive_taken s (i := .readStatus) rfl hc, ownReadStatus_leaves s⟩
  case resetEnable => exact ⟨_, receive_taken s (i := .resetEnable) rfl hc, ownResetEnable_leaves s⟩
  case softReset => exact ⟨_, receive_taken s (i := .softReset) rfl hc, ownSoftReset_leaves s⟩
  case takeNotice => exact ⟨_, receive_taken s (i := .takeNotice) rfl hc, ownTakeNotice_leaves s⟩
  case noticeDone ceiling =>
    exact ⟨_, receive_taken s (i := .noticeDone ceiling) rfl hc, ownNoticeDone_leaves ceiling s⟩
  case clearNotice source =>
    exact ⟨_, receive_taken s (i := .clearNotice source) rfl hc, ownClearNotice_leaves source s⟩
  case setNoticeLevel source level =>
    exact ⟨_, receive_taken s (i := .setNoticeLevel source level) rfl hc, ownSetNoticeLevel_leaves source level s⟩
  case readNotices => exact ⟨_, receive_taken s (i := .readNotices) rfl hc, ownReadNotices_leaves s⟩
  case readSetting key => exact ⟨_, receive_taken s (i := .readSetting key) rfl hc, ownReadSetting_leaves key s⟩
  case writeSetting key value =>
    exact ⟨_, receive_taken s (i := .writeSetting key value) rfl hc, ownWriteSetting_leaves key value s⟩
  case saveProfile wp => exact ⟨_, receive_taken s (i := .saveProfile wp) rfl hc, ownSaveProfile_leaves wp s⟩
  case loadProfile => exact ⟨_, receive_taken s (i := .loadProfile) rfl hc, ownLoadProfile_leaves s⟩
  case openHeat number policy =>
    exact ⟨_, receive_taken s (i := .openHeat number policy) rfl hc, ownOpenHeat_leaves number policy s⟩
  case closeHeat => exact ⟨_, receive_taken s (i := .closeHeat) rfl hc, ownCloseHeat_leaves s⟩
  case enterLane lane bib =>
    exact ⟨_, receive_taken s (i := .enterLane lane bib) rfl hc, ownEnterLane_leaves lane bib s⟩
  case vacateLane lane => exact ⟨_, receive_taken s (i := .vacateLane lane) rfl hc, ownVacateLane_leaves lane s⟩
  case withdrawLane lane => exact ⟨_, receive_taken s (i := .withdrawLane lane) rfl hc, ownWithdrawLane_leaves lane s⟩
  case findBib bib => exact ⟨_, receive_taken s (i := .findBib bib) rfl hc, ownFindBib_leaves bib s⟩
  case readLane lane => exact ⟨_, receive_taken s (i := .readLane lane) rfl hc, ownReadLane_leaves lane s⟩
  case readRoster start => exact ⟨_, receive_taken s (i := .readRoster start) rfl hc, ownReadRoster_leaves start s⟩
  case readHeat => exact ⟨_, receive_taken s (i := .readHeat) rfl hc, ownReadHeat_leaves s⟩
  case readAttempt => exact ⟨_, receive_taken s (i := .readAttempt) rfl hc, ownReadAttempt_leaves s⟩
  case callMarks => exact ⟨_, receive_taken s (i := .callMarks) rfl hc, ownCallMarks_leaves s⟩
  case callSet => exact ⟨_, receive_taken s (i := .callSet) rfl hc, ownCallSet_leaves s⟩
  case standUp => exact ⟨_, receive_taken s (i := .standUp) rfl hc, ownStandUp_leaves s⟩
  case imposeCharge lane effect =>
    exact ⟨_, receive_taken s (i := .imposeCharge lane effect) rfl hc, ownImposeCharge_leaves lane effect s⟩
  case rescindCharge lane =>
    exact ⟨_, receive_taken s (i := .rescindCharge lane) rfl hc, ownRescindCharge_leaves lane s⟩
  case rescindFieldWarning =>
    exact ⟨_, receive_taken s (i := .rescindFieldWarning) rfl hc, ownRescindFieldWarning_leaves s⟩
  case readLink link clear =>
    exact ⟨_, receive_taken s (i := .readLink link clear) rfl hc, ownReadLink_leaves link clear s⟩
  exact ⟨_, receive_taken s (i := .recall) rfl hc, ownRecall_leaves s⟩

end Sys2Proof.Laws
end

