-- ==== Sys2Proof/WellFormed.lean ====
section
/-! DEFINITION. Which commands can occur: the row's own description of its event holds of its operands. Argument bytes of
port commands carry any value; their owners refuse or clamp them (Table 12-2, note 2). -/

namespace Sys2Proof

/-- A command is well formed when its operands are ones its event can have: an unknown code names no command (R179), the
word found is the alignment word (R53), and a silent frame's bits are all alike (R56). -/
def Instr.wellFormed : Instr → Bool
  | .unknownCommandCode code => (argumentCount code).isNone
  | .searchWordFound _ bits => bits == Config.alignmentWord
  | .framePosition _ silent bits => !silent || bits == 0 || bits == 0xFFFF
  | .readStatus => true
  | .resetEnable => true
  | .softReset => true
  | .softResetAction _ => true
  | .fullReset => true
  | .takeNotice => true
  | .noticeDone _ => true
  | .clearNotice _ => true
  | .setNoticeLevel _ _ => true
  | .readNotices => true
  | .readSetting _ => true
  | .writeSetting _ _ => true
  | .saveProfile _ => true
  | .profileSaveComplete => true
  | .loadProfile => true
  | .openHeat _ _ => true
  | .closeHeat => true
  | .enterLane _ _ => true
  | .vacateLane _ => true
  | .withdrawLane _ => true
  | .findBib _ => true
  | .readLane _ => true
  | .readRoster _ => true
  | .streamRecordCopy => true
  | .readHeat => true
  | .readAttempt => true
  | .callMarks => true
  | .callSet => true
  | .standUp => true
  | .recall => true
  | .imposeCharge _ _ => true
  | .rescindCharge _ => true
  | .rescindFieldWarning => true
  | .readLink _ _ => true
  | .transactionStart => true
  | .transactionEnd => true
  | .transactionDiscard => true
  | .gunEdge => true
  | .gunRelease => true
  | .gunAcceptance => true
  | .lockoutEnd => true
  | .closeExpiry => true
  | .deadlineExpiry => true
  | .pulseEnd => true
  | .linkSilence _ => true
  | .frameArrival _ _ => true
  | .lineTransition _ => true
  | .fullResetEnd _ => true

end Sys2Proof
end

