-- ==== Sys2Proof/Tests/Slice0.lean ====
section
/-! SUPPORT. The model's own tests: ill-formed commands, codes, one step of each command on a small state; and, for every
statement with hypotheses, a theorem `test_hyps_…` that shows states and operands that meet them, clause by clause, at the
boundaries of their ranges. -/

namespace Sys2Proof.Tests

open Sys2Proof.Machine

set_option Elab.async false

/-! ### Small states -/

/-- A port that collects a command. -/
def collectingPort : Port := { Port.afterReset with phase := .collecting, bitCount := some 0, bytePos := some 0 }

/-- A lawful heat record for each heat state: heat 212 under FIELD, gun stamp 100. -/
def heatOf : HeatState → Heat
  | .idle => Heat.cleared
  | .roster => ⟨.roster, 0, some ⟨212, .field⟩, none, none, none, none, none, none⟩
  | .marks => ⟨.marks, 1, some ⟨212, .field⟩, none, none, none, none, none, none⟩
  | .set => ⟨.set, 1, some ⟨212, .field⟩, none, none, none, none, none, none⟩
  | .watch => ⟨.watch, 1, some ⟨212, .field⟩, some 100, none, some 3100, some 20100, none, none⟩
  | .running => ⟨.running, 1, some ⟨212, .field⟩, some 100, none, none, some 20100, none, none⟩
  | .done => ⟨.done, 1, some ⟨212, .field⟩, some 100, none, none, none, none, none⟩
  | .review => ⟨.review, 1, some ⟨212, .field⟩, some 100, none, none, none, none, none⟩

/-- The report of a clean start at stamp 100. -/
def cleanReport : Report := ⟨1, .clean, some 100, none, [], [], [], [], none⟩

/-- A lawful report for each heat state. -/
def reportOf : HeatState → Option Report
  | .running => some cleanReport
  | .done => some cleanReport
  | .review => some { cleanReport with outcome := .stoodUp }
  | _ => none

/-- The part in a heat state, with an empty roster, collecting a command at track time 100. -/
def inState (h : HeatState) : State :=
  { State.reset with port := collectingPort, trackTime := 100, heat := heatOf h, report := reportOf h }

/-- The athlete with bib 92 of a standing and a charge list. -/
def athlete (standing : Standing) (charges : List Charge) : Entry := ⟨92, standing, charges, none⟩

/-- A lane whose athlete is ELIGIBLE, in a phase. -/
def laneIn (p : Phase) : Lane := { Lane.cleared with entry := some (athlete .eligible []), phase := p }

/-- The part in a heat state, with lane 3 as given and its athlete in the index. -/
def seated (h : HeatState) (l : Lane) : State :=
  { inState h with lanes := Vector.ofFn fun i => if i = 2 then l else Lane.cleared, bibIndex := [(92, 2)] }

/-- A charge entry made in attempt 1. -/
def charge (effect : Effect) (final : Bool) : Charge := ⟨1, effect, .referee, final⟩

/-- The part in IDLE with a save in progress since stamp 100. -/
def saving : State := { inState .idle with profile := .saving (imageOf Settings.defaults) 100 }

/-- A receiver of link A in an alignment state, with a frame position at stamp 100. -/
def receiver (x : Align) (confirm errored : Nat) : LinkRx :=
  { State.reset.linkA with align := x, framePos := some 100, confirmCount := confirm, erroredCount := errored }

/-- The result code of a command's answer, when it answers one. -/
def answer : Host.Outcome State Fault Refusal → Option ResultCode
  | .next t => t.port.response.map Response.result
  | _ => none

/-- The state after a command, or the state given when it stops. -/
def after (i : Instr) (s : State) : State :=
  match exec i s with
  | .next t => t
  | _ => s

theorem ready_not_saving {s : State} (h : s.profile = .ready) : ∀ image since, s.profile ≠ .saving image since := by
  rw [h]
  intro _ _ k
  cases k

/-! ### Well-formedness: each check refuses an ill-formed command -/

theorem test_wf_unknown_code : (Instr.unknownCommandCode 0x01).wellFormed = false ∧
    (Instr.unknownCommandCode 0x60).wellFormed = false ∧ (Instr.unknownCommandCode 0x00).wellFormed = true := by decide

theorem test_wf_search_word : (Instr.searchWordFound .a 0xC5A2).wellFormed = false ∧
    (Instr.searchWordFound .b 0xC5A3).wellFormed = true := by decide

theorem test_wf_silent_frame : (Instr.framePosition .a true 0xC5A3).wellFormed = false ∧
    (Instr.framePosition .a true 0xFFFF).wellFormed = true ∧ (Instr.framePosition .a false 0xC5A3).wellFormed = true := by
  decide

/-! ### Words and bytes written out from Table 12-2, Table 12-1 and R190 -/

theorem test_no_table_words : decodeTableWord 8 0x01 = none ∧ State.reset.withFetchWord 8 0x01 = State.reset := by
  exact ⟨rfl, rfl⟩

theorem test_decode_port : decodeCommand true [0x01] = some .readStatus ∧
    decodeCommand true [0x21, 0x02, 0x00, 0x0A] = some (.writeSetting 2 10) ∧
    decodeCommand true [0x30, 0x00, 0xD4, 0x01] = some (.openHeat 212 1) ∧
    decodeCommand true [0x32, 0x04, 0x04, 0xA3] = some (.enterLane 4 1187) ∧
    decodeCommand true [0x50, 0x03, 0x01] = some (.imposeCharge 3 1) ∧
    decodeCommand true [0x60, 0x01, 0x00] = some (.readLink 1 0) ∧
    decodeCommand false [0x22] = some (.saveProfile false) ∧ decodeCommand true [0x00] = none := by decide

/-- R190's check value of the CRC-16 algorithm over "123456789", and the check value of an all-ones slot. -/
theorem test_crc : crc16 [0x31, 0x32, 0x33, 0x34, 0x35, 0x36, 0x37, 0x38, 0x39] = 0x29B1 ∧
    slotCrc (BitVec.allOnes 40) = 0xDE := by decide +kernel

/-! ### The queue and time -/

/-- StepOnEmptyQueue: a due event, an edge that waits, neither, a full reset; and time moving under armed timers. -/
theorem test_hyps_StepOnEmptyQueue :
    (State.reset.pending = [] ∧ State.reset.dueEvent = none ∧ State.reset.edges = [] ∧ State.reset.inReset = false) ∧
    (let s : State := { State.reset with edges := [.selectFall, .selectRise] };
      s.pending = [] ∧ s.dueEvent = none ∧ s.edges = .selectFall :: [.selectRise]) ∧
    (let s : State := { State.reset with heat := { Heat.cleared with pulseEnd := some 0 } };
      s.pending = [] ∧ s.dueEvent = some .pulseEnd) ∧
    (let s : State := { State.reset with inReset := true };
      s.pending = [] ∧ s.edges = [] ∧ s.inReset = true) ∧
    (let s : State :=
        { inState .watch with
          gun := ⟨some ⟨100, 10⟩, none, some 600, false, true⟩, profile := .saving (imageOf Settings.defaults) 100,
          heat := { heatOf .watch with pulseEnd := some 5100 } };
      s.pending = [] ∧ (∃ t, step s = .next t ∧ t.trackTime ≠ s.trackTime) ∧ s.heat.pulseEnd = some 5100 ∧
        s.gun.lockoutEnd = some 600 ∧ s.heat.state = .watch ∧ s.heat.closeTime = some 3100 ∧ s.gun.lineLow = true ∧
        s.gun.qualification = some ⟨100, 10⟩ ∧ ∃ image, s.profile = .saving image 100) ∧
    (let s := inState .running;
      s.pending = [] ∧ (∃ t, step s = .next t ∧ t.trackTime ≠ s.trackTime) ∧ s.heat.state = .running ∧
        s.heat.deadlineTime = some 20100) := by
  refine ⟨⟨rfl, by decide +kernel, rfl, rfl⟩, ⟨rfl, by decide +kernel, rfl⟩, ⟨rfl, by decide +kernel⟩, ⟨rfl, rfl, rfl⟩,
    ⟨rfl, ⟨_, rfl, by decide +kernel⟩, rfl, rfl, rfl, rfl, rfl, rfl, _, rfl⟩, ⟨rfl, ⟨_, rfl, by decide +kernel⟩, rfl, rfl⟩⟩

/-! ### The port -/

/-- PortAnswers, the phases of its second part. -/
theorem test_hyps_PortAnswers : collectingPort.phase = .collecting ∧
    ({ Port.afterReset with phase := .ignoring .unknownCode } : Port).phase = .ignoring .unknownCode ∧
    State.reset.sdoDriven = false ∧ (inState .idle).sdoDriven = true := by decide

/-- PortCommandsAreTaken: a command with a code, collected and not. -/
theorem test_hyps_PortCommandsAreTaken : Instr.readStatus.code = some 0x01 ∧ (Instr.readLink 1 1).code = some 0x60 ∧
    (inState .idle).collecting = true ∧ State.reset.collecting = false := by decide

theorem test_hyps_Transactions :
    (State.reset.inReset = false ∧ State.reset.port.phase = .deselected) ∧ (inState .idle).port.phase ≠ .deselected ∧
    ((inState .idle).collecting = true ∧ argumentCount 0x00 = none ∧ Instr.readStatus.code = some 0x01) ∧
    State.reset.collecting = false ∧ (after .fullReset State.reset).inReset = true ∧
    (let s : State := { State.reset with port := { Port.afterReset with phase := .ignoring .unknownCode } };
      s.inReset = false ∧ s.port.softArmed = false ∧ s.port.phase = .ignoring .unknownCode) ∧
    (let s := after .readHeat (inState .idle);
      s.inReset = false ∧ s.port.softArmed = false ∧ s.port.phase = .answering) ∧
    (let s := after (.fullResetEnd false) (after .fullReset State.reset);
      s.inReset = false ∧ s.port.softArmed = false ∧ s.port.phase = .ignoring .fullReset) := by
  decide +kernel

/-- Transactions: select falls, an unknown code, and the two ends of a transaction. -/
theorem test_transactions : (after .transactionStart State.reset).port = collectingPort ∧
    (after (.unknownCommandCode 0x00) (inState .idle)).port.phase = .ignoring .unknownCode ∧
    (after .transactionDiscard (inState .idle)).port.lastResult = .framing ∧
    (after .transactionEnd (after .readHeat (inState .idle))).port.lastResult = .done := by
  decide +kernel

/-- R183, R184: SOFT RESET is refused unarmed, and taken after RESET ENABLE; Table 10-6. -/
theorem test_hyps_SoftReset :
    ((inState .idle).collecting = true ∧ (inState .idle).port.latch = false) ∧
    (let s : State := { saving with port := { collectingPort with latch := true } };
      s.collecting = true ∧ s.port.latch = true ∧ ∃ image since, s.profile = .saving image since) ∧
    (let s : State := { inState .idle with port := { collectingPort with latch := true } };
      s.collecting = true ∧ s.port.latch = true ∧ (∀ image since, s.profile ≠ .saving image since) ∧
        (after .softReset s).inReset = false ∧ (after .softReset s).port.softArmed = true ∧
        (after .softReset s).port.phase = .answering) ∧
    (after .fullReset State.reset).inReset = true ∧ (inState .idle).port.softArmed = false := by
  refine ⟨by decide +kernel, ⟨by decide +kernel, rfl, _, _, rfl⟩, ⟨by decide +kernel, rfl, ready_not_saving rfl, by decide +kernel⟩,
    by decide +kernel, rfl⟩

theorem test_soft_reset :
    (let s : State := { inState .roster with port := { collectingPort with latch := true } };
      (after (.softResetAction .resultByteEnd) (after .softReset s)).heat.state = .idle ∧
        (after (.softResetAction .resultByteEnd) (after .softReset s)).port.phase = .ignoring .softReset ∧
        (after .transactionEnd (after .softReset s)).port.phase = .deselected) := by
  decide +kernel

/-- FullReset: its clauses; a reset in which a line has moved meanwhile. -/
theorem test_hyps_FullReset : (∃ image since, saving.profile = .saving image since) ∧
    (∀ image since, (inState .idle).profile ≠ .saving image since) ∧ (inState .idle).inReset = false ∧
    (let s := after (.lineTransition .a) (after .fullReset State.reset); s.inReset = true ∧ s.linkA.lineHigh = true) :=
  ⟨⟨_, _, rfl⟩, ready_not_saving rfl, rfl, by decide +kernel⟩

/-- A full reset and its end with select high give State.reset back. -/
theorem test_full_reset : after (.fullResetEnd true) (after .fullReset State.reset) = State.reset := by decide +kernel

/-! ### The pins of the port, edge by edge -/

/-- The state after edges, or the state given when one stops. -/
def clocked (edges : List PinEdge) (s : State) : State :=
  match s.takeEdges edges with
  | .next t => t
  | _ => s

theorem inState_portLaw (h : HeatState) : (inState h).PortLaw := by
  constructor <;> simp [inState, collectingPort, Port.afterReset, State.reset]

/-- PortPins: high and low SCK, select high and a full reset; a bit and the last bit of a byte position. -/
theorem test_hyps_PortPins_bits :
    (let s : State := { inState .idle with sckHigh := true }; s.sckHigh = true) ∧ (inState .idle).sckHigh = false ∧
    State.reset.port.phase = .deselected ∧ (after .fullReset State.reset).inReset = true ∧
    (let s := inState .idle;
      s.inReset = false ∧ s.port.phase ≠ .deselected ∧ s.sckHigh = false ∧ s.port.bitCount = some 0 ∧
        s.port.bytePos = some 0) ∧
    (let s := clocked ((byteEdges 0).take 14) (after .readHeat (inState .idle));
      s.inReset = false ∧ s.port.phase ≠ .collecting ∧ s.sckHigh = false ∧ s.port.bitCount = some 7 ∧
        s.port.bytePos = some 1) ∧
    ∃ t, (inState .idle).takeEdge (.sckRise true) = .next t := by
  refine ⟨rfl, rfl, by decide +kernel, by decide +kernel, by decide +kernel, by decide +kernel, _, rfl⟩

/-- PortPins: the falling edges of a response. No response; an armed reset at its result byte's end; a stream's first record,
its next record and a byte between them; a response that is no stream. -/
theorem test_hyps_PortPins_falls :
    (let s := clocked ((byteEdges 0).take 1) (inState .idle);
      s.inReset = false ∧ s.sckHigh = true ∧ s.port.response = none ∧ s.port.bytePos = some 0) ∧
    (let s := clocked (byteEdges 0).dropLast (after .softReset { inState .idle with port := { collectingPort with latch := true } });
      s.sckHigh = true ∧ s.port.softArmed = true ∧ s.port.bitCount = some 0 ∧ s.port.bytePos = some 2 ∧
        s.port.response.map Response.resultPos = some 1) ∧
    (let s := clocked (byteEdges 0).dropLast (after .readStatus (inState .idle));
      s.sckHigh = true ∧ s.port.softArmed = false ∧ s.port.bytePos = some 2 ∧ s.port.response.map Response.copyPos = some 2 ∧
        (s.port.response.bind Response.stream).isSome = true) ∧
    (let s := clocked (List.replicate 10 (byteEdges 0)).flatten.dropLast (after .readStatus (inState .idle));
      s.sckHigh = true ∧ s.port.bitCount = some 0 ∧ s.port.bytePos = some 11 ∧
        s.port.response.map (fun r => (r.copyPos, r.copy.length, r.stream)) = some (2, 9, some .status)) ∧
    (let s := clocked (List.replicate 2 (byteEdges 0)).flatten.dropLast (after .readStatus (inState .idle));
      s.sckHigh = true ∧ s.port.bitCount = some 0 ∧ s.port.bytePos = some 3) ∧
    (let s := clocked (byteEdges 0).dropLast (after .readHeat (inState .idle));
      s.sckHigh = true ∧ s.port.bytePos = some 2 ∧ s.port.response.map Response.stream = some none) := by
  decide +kernel

/-- PortPins: a port that has just been selected, a command of each length, a cut one, and a code of no command. -/
theorem test_hyps_PortPins_bytes : (inState .idle).PortLaw ∧ (inState .idle).collecting = true ∧
    encodeCommand .readStatus = some [0x01] ∧ encodeCommand (.enterLane 6 403) = some [0x32, 0x06, 0x01, 0x93] ∧
    62 + 1 < 16 * ([0x32, 0x06, 0x01, 0x93] : List Byte).length ∧ ∀ i : Instr, i.code ≠ some 0x00 :=
  ⟨inState_portLaw .idle, rfl, rfl, rfl, by decide, fun i => by cases i <;> simp [Instr.code]⟩

/-- Table 10-5: ENTER LANE (6, 403) clocked in is taken at the last rising edge, answered, and ended by the rise of select. -/
theorem test_enter_lane_clocked :
    (let s := clocked ([0x32, 0x06, 0x01, 0x93].flatMap byteEdges) (clocked [.selectFall] { State.reset with heat := heatOf .roster });
      s.lanes[5].entry.map Entry.bib = some 403 ∧ s.bibIndex = [(403, 5)] ∧ s.port.phase = .answering ∧
        s.port.bytePos = some 4 ∧ s.sdo = some false ∧
        (clocked ((byteEdges 0).take 14) s).sdo = some true ∧ (clocked [.selectRise] s).port.phase = .deselected ∧
        (clocked [.selectRise] s).port.lastResult = .done) := by
  decide +kernel

/-- 10.7: select rises after the seventh rising edge of byte position 3: the command is not taken. -/
theorem test_enter_lane_cut :
    (let s := clocked (([0x32, 0x06, 0x01, 0x93].flatMap byteEdges).take 61 ++ [.selectRise])
        (clocked [.selectFall] { State.reset with heat := heatOf .roster });
      s.lanes[5].entry = none ∧ s.bibIndex = [] ∧ s.port.lastResult = .framing ∧ s.noticePending .commandError = true) := by
  decide +kernel

/-- R174, R181: a status stream enters Streaming with its first record, and copies the next record at that record's first byte. -/
theorem test_stream_clocked :
    (let s := clocked ((byteEdges 0x01) ++ byteEdges 0) (inState .idle);
      s.port.phase = .streaming ∧ (clocked (List.replicate 9 (byteEdges 0)).flatten s).port.response.map Response.copyPos = some 11) := by
  decide +kernel

/-! ### Reads -/

theorem test_hyps_ReadCommands :
    (inState .idle).collecting = true ∧ (inState .running).report = some cleanReport ∧ (inState .idle).report = none ∧
    (1 : Byte).toNat = laneNumber 0 ∧ (10 : Byte).toNat = laneNumber 9 ∧ (0 : Byte).toNat = 0 ∧ 10 < (11 : Byte).toNat ∧
    1 < (2 : Byte).toNat := by decide

/-- Table 12-8: the status record after reset, and a stream's next record. -/
theorem test_status_record : State.reset.statusBytes = [0, 0, 0, 0, 0, 0, 0x01, 3, 7] ∧
    (after .readStatus (inState .idle)).port.byteSent 1 = 0x01 ∧ (after .readStatus (inState .idle)).port.byteSent 10 = 7 := by
  decide +kernel

theorem test_hyps_StreamsCopyTheNextRecord :
    (let s := after .readStatus (inState .idle);
      s.inReset = false ∧ ∃ r, s.port.response = some r ∧ r.stream = some .status) ∧
    (let s := after (.readRoster 10) (inState .idle);
      s.inReset = false ∧ ∃ r, s.port.response = some r ∧ r.stream = some (.roster 0)) ∧
    (let s := after .readHeat (inState .idle);
      s.inReset = false ∧ ∃ r, s.port.response = some r ∧ r.stream = none) := by
  refine ⟨⟨rfl, _, rfl, rfl⟩, ⟨rfl, _, rfl, rfl⟩, ⟨rfl, _, rfl, rfl⟩⟩

theorem test_hyps_RecordsHaveFixedForm : Lane.cleared.entry = none ∧ Lane.cleared.baseline = none ∧ Lane.cleared.onset = none ∧
    Lane.cleared.rt = none ∧ Lane.cleared.phase = .off ∧ rtInRange (-9999) ∧ rtInRange 9999 ∧
    (laneIn .waiting).entry = some (athlete .eligible []) := by
  unfold rtInRange
  decide

/-- Table 12-5: the record of lane 3 in full. Its athlete, bib 92, is CAUTIONED by a sensed charge of RT 87, final; the baseline
is 3,020 SETTLED with level 3,255, the onset 0x01020304, the RT 87 and the last result CULPRIT. -/
theorem test_lane_record :
    laneBytes 2
        { Lane.cleared with
          entry := some ⟨92, .cautioned, [⟨1, .caution, .sensed 87, true⟩], some ⟨.culprit 87, false⟩⟩, phase := .reacted,
          baseline := some ⟨3020, 3255, .settled, true⟩, onset := some 0x01020304, rt := some 87 } =
      [3, 0x1F, 4, 1, 0, 92, 0x0B, 0xCC, 0, 0x0C, 0xB7, 1, 2, 3, 4, 0, 87, 2, 1, 0, 87, 1, 1, 0x0C, 0, 87, 0, 0, 0, 0] := by
  decide +kernel

/-- Table 12-6: the heat record of an attempt recalled for a false start, with a field warning on lanes 3 and 4. -/
theorem test_heat_record :
    heatBytes { heatOf .review with issued := some ⟨.falseStart, 0x01020304⟩, warning := some ⟨1, [2, 3], true⟩ } =
      [7, 1, 0x0F, 0, 212, 1, 0, 0, 0, 100, 0, 1, 2, 3, 4, 1, 1, 0, 0x0C] := by
  decide +kernel

/-- READ NOTICES after reset: LINK_A_DOWN and LINK_B_DOWN pending, the default levels, ceiling 7. -/
theorem test_notice_record :
    State.reset.noticeBytes = [0, 0x0C, 0, 1, 1, 1, 2, 2, 2, 3, 3, 4, 4, 5, 5, 6, 7] := by
  decide +kernel

/-! ### Notices -/

theorem test_hyps_TakeNotice : (inState .idle).collecting = true ∧ (inState .idle).winner = some .linkADown ∧
    ((inState .idle).raise .falseStart).winner = some .falseStart ∧
    ({ inState .idle with notices := { Notices.cleared with ceiling := 0 } } : State).winner = none := by decide +kernel

/-- R167, R168: a notice taken lowers the ceiling to its level, and NOTICE DONE raises it again. -/
theorem test_take_notice : (after .takeNotice (inState .idle)).notices.ceiling = 1 ∧
    (after .takeNotice (inState .idle)).winner = none ∧ answer (exec (.noticeDone 8) (inState .idle)) = some .clamped ∧
    answer (exec (.noticeDone 7) (inState .idle)) = some .done := by decide +kernel

theorem test_hyps_NoticeSettings : (inState .idle).collecting = true ∧ (0 : Byte).toNat = (0 : Fin 8).val ∧
    (7 : Byte).toNat = (7 : Fin 8).val ∧ 7 < (8 : Byte).toNat ∧ (1 : Byte).toNat = NoticeSource.falseStart.index.val + 1 ∧
    (3 : Byte).toNat = NoticeSource.linkADown.index.val + 1 ∧ (14 : Byte).toNat = NoticeSource.permitChange.index.val + 1 ∧
    (0 : Byte).toNat = 0 ∧ 14 < (15 : Byte).toNat := by decide

theorem test_notice_settings : answer (exec (.clearNotice 3) (inState .idle)) = some .badArgument ∧
    answer (exec (.clearNotice 14) (inState .idle)) = some .done ∧
    answer (exec (.setNoticeLevel 15 0) (inState .idle)) = some .badArgument ∧
    answer (exec (.setNoticeLevel 14 8) (inState .idle)) = some .clamped := by decide +kernel

/-! ### Settings and the profile -/

theorem test_hyps_SettingCommands : (inState .idle).collecting = true ∧ (1 : Byte).toNat = (0 : Key).val + 1 ∧
    (40 : Byte).toNat = (39 : Key).val + 1 ∧ (0 : Byte).toNat = 0 ∧ 40 < (41 : Byte).toNat ∧
    ((inState .roster).heat.state = .roster ∧ (13 : Key).val < 14) ∧
    ¬ ((inState .roster).heat.state = .idle ∨ (inState .roster).heat.state = .roster ∧ (14 : Key).val < 14) ∧
    17 < (18 : Key).val ∧ (saving.heat.state = .idle ∧ ∃ image since, saving.profile = .saving image since) ∧
    ∀ image since, (inState .roster).profile ≠ .saving image since :=
  ⟨by decide, rfl, rfl, rfl, by decide, ⟨rfl, by decide⟩, by decide, by decide, ⟨rfl, _, _, rfl⟩, ready_not_saving rfl⟩

/-- Table 11-2 and R187: writes in order, within range, clamped, and refused. -/
theorem test_settings : answer (exec (.writeSetting 1 499) (inState .idle)) = some .clamped ∧
    answer (exec (.writeSetting 14 1) (inState .roster)) = some .done ∧
    answer (exec (.writeSetting 15 6) (inState .roster)) = some .wrongState ∧
    answer (exec (.writeSetting 1 500) saving) = some .busy := by decide +kernel

/-- WriteLinkRange: a write that is refused (R188: the ranges meet), one whose span is clamped, and one that disables. -/
theorem test_hyps_WriteLinkRange :
    (let s := inState .idle;
      s.collecting = true ∧ s.heat.state = .idle ∧ (∀ image since, s.profile ≠ .saving image since) ∧ LinkId.b ≠ LinkId.a ∧
        (15 : Byte).toNat = 15 ∧ s.settings.first .b = 6 ∧ s.settings.last .b = 10 ∧ s.settings.last .a = 5) ∧
    answer (exec (.writeSetting 16 6) (inState .idle)) = some .badArgument ∧
    answer (exec (.writeSetting 15 6) (inState .idle)) = some .badArgument ∧
    answer (exec (.writeSetting 15 0) (inState .idle)) = some .done ∧
    answer (exec (.writeSetting 16 10) (after .transactionStart
      (after .transactionEnd (after (.writeSetting 17 0) (inState .idle))))) = some .clamped := by
  refine ⟨⟨by decide, rfl, ready_not_saving rfl, by decide, rfl, by decide +kernel, by decide +kernel, by decide +kernel⟩,
    by decide +kernel, by decide +kernel, by decide +kernel, by decide +kernel⟩

/-- SettingsChange: links that stay disabled, go down, come up, and stay enabled with and without a new range or closure. -/
theorem test_hyps_SettingsChange :
    (let c := Settings.defaults;
      c.first .a ≠ 0 ∧ (c.put 14 0).first .a = 0 ∧ (c.put 14 2).first .a ≠ c.first .a ∧ (c.put 15 4).last .a ≠ c.last .a ∧
        (c.put 30 1).first .a = c.first .a ∧ (c.put 30 1).last .a = c.last .a ∧ c.closed 0 ≠ (c.put 30 1).closed 0 ∧
        laneNumber 0 = (c.put 30 1).first .a + 0 ∧ laneNumber 0 ≤ (c.put 30 1).last .a ∧
        c.range .a ≠ (c.put 14 0).range .a) := by
  decide +kernel

theorem test_hyps_ProfileSave :
    ((inState .roster).collecting = true ∧ (inState .roster).heat.state ≠ .idle) ∧
    (saving.collecting = true ∧ saving.heat.state = .idle ∧ ∃ image since, saving.profile = .saving image since) ∧
    ((inState .idle).collecting = true ∧ (inState .idle).heat.state = .idle ∧
      ∀ image since, (inState .idle).profile ≠ .saving image since) :=
  ⟨by decide, ⟨by decide, rfl, _, _, rfl⟩, ⟨by decide, rfl, ready_not_saving rfl⟩⟩

theorem test_profile : answer (exec (.saveProfile false) (inState .idle)) = some .locked ∧
    answer (exec (.saveProfile true) (inState .idle)) = some .done ∧
    (after .profileSaveComplete saving).profile = .ready ∧ answer (exec .loadProfile (inState .idle)) = some .done := by
  decide +kernel

/-- LoadProfile: an image that is accepted, and one whose CRC is wrong. -/
theorem test_hyps_LoadProfile : imageAccepted (inState .idle).nvm = true ∧
    imageAccepted (Vector.replicate 82 0) = false ∧ (inState .idle).collecting = true ∧ (inState .idle).heat.state = .idle ∧
    (inState .roster).heat.state ≠ .idle := by decide +kernel

/-- The settings law holds over the defaults (SettingsLawKept, ProfileImageRoundTrip, Slots, and the laws kept under it). -/
theorem test_hyps_SettingsLaw (h : HeatState) (l : Lane) : (seated h l).SettingsLaw :=
  ⟨Laws.defaults_legal.range, Laws.defaults_legal.links, Laws.defaults_legal.apart,
    fun image since k => absurd k (ready_not_saving rfl image since)⟩

/-! ### The roster -/

theorem test_hyps_OpenHeat :
    ((inState .idle).collecting = true ∧ (inState .idle).heat.state = .idle ∧
      ∀ image since, (inState .idle).profile ≠ .saving image since) ∧
    (inState .roster).heat.state ≠ .idle ∧ (saving.heat.state = .idle ∧ ∃ image since, saving.profile = .saving image since) ∧
    2 < (3 : Byte).toNat ∧ (2 : Byte) = Policy.value .caution ∧ (1 : BitVec 16) ≠ 0 :=
  ⟨⟨by decide, rfl, ready_not_saving rfl⟩, by decide, ⟨rfl, _, _, rfl⟩, by decide, rfl, by decide⟩

theorem test_openHeat : answer (exec (.openHeat 65535 2) (inState .idle)) = some .done ∧
    answer (exec (.openHeat 0 0) (inState .idle)) = some .badArgument ∧
    answer (exec (.openHeat 1 3) (inState .idle)) = some .badArgument ∧
    answer (exec (.openHeat 1 0) saving) = some .busy := by decide +kernel

theorem test_hyps_CloseHeat : (inState .idle).collecting = true ∧ (inState .idle).heat.state = .idle ∧
    (inState .roster).collecting = true ∧ (inState .roster).heat.state = .roster := by decide

theorem test_closeHeat : answer (exec .closeHeat (inState .watch)) = some .wrongState ∧
    (after .closeHeat (seated .done (laneIn .waiting))).heat = Heat.cleared ∧
    (after .closeHeat (seated .done (laneIn .waiting))).bibIndex = [] := by decide +kernel

/-- The index of a roster of one athlete is lawful. -/
theorem test_hyps_IndexLaw (h : HeatState) (p : Phase) : (seated h (laneIn p)).IndexLaw := by
  refine ⟨by simp [seated], by simp [seated], ?_⟩
  intro b i
  by_cases hi : i = 2
  · subst hi
    simp [seated, laneIn, athlete, eq_comm]
  · have h2 : (seated h (laneIn p)).lanes[i] = Lane.cleared := by simp [seated, hi]
    rw [h2]
    simp [seated, hi, Lane.cleared]

theorem test_hyps_EnterLane :
    ((inState .idle).heat.state ≠ .roster ∧ (seated .roster (laneIn .off)).collecting = true ∧
      (seated .roster (laneIn .off)).heat.state = .roster) ∧
    ((0 : Byte).toNat = 0 ∧ 10 < (11 : Byte).toNat ∧ (0 : BitVec 16).toNat = 0 ∧ 9999 < (10000 : BitVec 16).toNat) ∧
    ((1 : Byte).toNat = laneNumber 0 ∧ (10 : Byte).toNat = laneNumber 9 ∧ 1 ≤ (1 : BitVec 16).toNat ∧
      (9999 : BitVec 16).toNat ≤ 9999) ∧
    ({ inState .roster with settings := Settings.defaults.put 30 1 } : State).settings.closed 0 = true ∧
    (let s := seated .roster (laneIn .off);
      s.settings.closed 0 = false ∧ (∃ l : LinkId, s.settings.serves l 0 = true) ∧ (92, 2) ∈ s.bibIndex ∧
        s.lanes[(2 : LaneNo)].entry ≠ none ∧ (∀ j : LaneNo, (1, j) ∉ s.bibIndex) ∧ s.lanes[(0 : LaneNo)].entry = none) := by
  refine ⟨by decide +kernel, by decide, by decide, by decide +kernel, by decide +kernel, ⟨.a, by decide +kernel⟩, by decide +kernel⟩

theorem test_enterLane :
    (let s := seated .roster (laneIn .off);
      answer (exec (.enterLane 3 1) s) = some .duplicate ∧ answer (exec (.enterLane 1 92) s) = some .duplicate ∧
        (after (.enterLane 10 9999) s).bibIndex = [(92, 2), (9999, 9)] ∧ (after (.enterLane 1 1) s).bibIndex = [(1, 0), (92, 2)]) := by
  decide +kernel

theorem test_hyps_VacateAndWithdrawLane :
    (let s := seated .roster (laneIn .off);
      s.collecting = true ∧ s.heat.state = .roster ∧ s.heat.state ≠ .idle ∧ s.heat.state ≠ .set ∧ s.heat.state ≠ .watch ∧
        (3 : Byte).toNat = laneNumber 2 ∧ (10 : Byte).toNat = laneNumber 9 ∧ s.lanes[(9 : LaneNo)].entry = none ∧
        s.lanes[(2 : LaneNo)].entry = some (athlete .eligible []) ∧ (athlete .eligible []).standing = .eligible) ∧
    (inState .idle).heat.state ≠ .roster ∧ (inState .set).heat.state = .set ∧ (0 : Byte).toNat = 0 ∧ 10 < (11 : Byte).toNat ∧
    (let s := seated .review { Lane.cleared with entry := some (athlete .withdrawn []) };
      s.lanes[(2 : LaneNo)].entry = some (athlete .withdrawn []) ∧ (athlete .withdrawn []).standing = .withdrawn) := by
  decide +kernel

theorem test_vacate_withdraw :
    (after (.vacateLane 3) (seated .roster (laneIn .off))).bibIndex = [] ∧
    answer (exec (.vacateLane 10) (seated .roster (laneIn .off))) = some .notFound ∧
    answer (exec (.withdrawLane 3) (seated .review (laneIn .off))) = some .done ∧
    answer (exec (.withdrawLane 3) (seated .watch (laneIn .off))) = some .wrongState := by decide +kernel

theorem test_hyps_FindBib : (seated .roster (laneIn .off)).collecting = true ∧ (0 : BitVec 16).toNat = 0 ∧
    9999 < (10000 : BitVec 16).toNat ∧ 1 ≤ (1 : BitVec 16).toNat ∧ (9999 : BitVec 16).toNat ≤ 9999 ∧
    (seated .roster (laneIn .off)).lanes[(2 : LaneNo)].entry = some (athlete .eligible []) ∧
    (athlete .eligible []).bib = (92 : BitVec 16).toNat ∧
    ∀ i : LaneNo, (inState .roster).lanes[i].entry = none := by decide +kernel

theorem test_findBib : answer (exec (.findBib 92) (seated .roster (laneIn .off))) = some .done ∧
    (after (.findBib 92) (seated .roster (laneIn .off))).port.byteSent 4 = 3 ∧
    answer (exec (.findBib 93) (seated .roster (laneIn .off))) = some .notFound := by decide +kernel

/-! ### The heat sequence -/

theorem test_hyps_CallMarks :
    ((inState .idle).collecting = true ∧ (inState .idle).heat.state ≠ .roster ∧ (inState .idle).heat.state ≠ .review) ∧
    ((inState .roster).heat.state = .roster ∧ ∀ i : LaneNo, (inState .roster).lanes[i].eligible = false) ∧
    (let s := seated .review (laneIn .off);
      s.heat.state = .review ∧ (∃ i : LaneNo, s.lanes[i].eligible = true) ∧ s.heat.attempt < 15) ∧
    (let s : State := { seated .review (laneIn .off) with heat := { heatOf .review with attempt := 15 } };
      (∃ i : LaneNo, s.lanes[i].eligible = true) ∧ 15 ≤ s.heat.attempt) := by
  refine ⟨by decide, by decide +kernel, ⟨rfl, ⟨2, by decide +kernel⟩, by decide⟩, ⟨2, by decide +kernel⟩, by decide⟩

theorem test_callMarks : (after .callMarks (seated .roster (laneIn .off))).heat.attempt = 1 ∧
    answer (exec .callMarks (inState .roster)) = some .noLanes := by decide +kernel

theorem test_hyps_CallSet : (inState .marks).collecting = true ∧ (inState .set).heat.state ≠ .marks ∧
    (inState .marks).heat.state = .marks ∧ (∀ i : LaneNo, (inState .marks).lanes[i].eligible = false) ∧
    (∃ i : LaneNo, (seated .marks (laneIn .off)).lanes[i].eligible = true) ∧
    (seated .marks (laneIn .off)).gun.permitOut = false :=
  ⟨by decide, by decide, by decide, by decide +kernel, ⟨2, by decide +kernel⟩, rfl⟩

theorem test_callSet : (after .callSet (seated .marks (laneIn .off))).lanes[2].phase = .settling ∧
    answer (exec .callSet (inState .marks)) = some .noLanes := by decide +kernel

theorem test_hyps_StandUp : (inState .set).collecting = true ∧ (inState .set).heat.state = .set ∧
    (inState .marks).heat.state = .marks ∧ (inState .watch).heat.state ≠ .marks ∧ (inState .watch).heat.state ≠ .set := by
  decide

theorem test_standUp : (after .standUp (seated .set (laneIn .moved))).report.map Report.movers = some [2] ∧
    (after .standUp (seated .set (laneIn .moved))).heat.state = .review := by decide +kernel

/-- The states of `inState` keep the law of the heat record. -/
theorem test_hyps_HeatLaw (h : HeatState) (l : Lane) : (seated h l).HeatLaw := by
  cases h <;> constructor <;>
    simp [seated, inState, heatOf, reportOf, Heat.cleared, cleanReport, HeatState.early, HeatState.inAttempt, HeatState.stood,
      reviewState]

theorem test_hyps_Recall : (inState .watch).heat.issued = none ∧
    ({ heatOf .watch with issued := some ⟨.starter, 90⟩ } : Heat).issued ≠ none ∧ (inState .watch).collecting = true ∧
    (inState .set).heat.state = .set ∧ (inState .done).heat.state = .done ∧ (inState .watch).heat.state = .watch ∧
    (inState .running).heat.state = .running := by decide

theorem test_recall : answer (exec .recall (inState .done)) = some .tooLate ∧
    (after .recall (inState .watch)).heat.pulseEnd = some 5100 ∧
    (after .recall (inState .running)).report.map Report.outcome = some .starterRecall ∧
    (after .recall (inState .running)).heat.state = .review := by decide +kernel

theorem test_hyps_CloseExpiry :
    (let s : State := { seated .watch (laneIn .waiting) with trackTime := 3100 };
      s.heat.state = .watch ∧ s.heat.closeTime = some 3100 ∧ 0 ≤ stampDiff s.trackTime 3100) ∧
    ((inState .running).heat.state ≠ .watch) ∧
    (let s : State := { inState .watch with trackTime := 3099 };
      s.heat.closeTime = some 3100 ∧ stampDiff s.trackTime 3100 < 0) := by decide +kernel

/-- R44, R45, R46: a close with a false lane, a clean one, and a clean one whose deadline is reached. -/
theorem test_closeExpiry :
    (let l : Lane := { laneIn .reacted with rt := some 999, onset := some 1099 };
      let s : State := { seated .watch l with trackTime := 3100 };
      (after .closeExpiry s).heat.state = .review ∧ (after .closeExpiry s).heat.warning = some ⟨1, [2], false⟩ ∧
        (after .closeExpiry s).report.map Report.outcome = some .falseStart) ∧
    (let s : State := { seated .watch (laneIn .waiting) with trackTime := 3100 };
      (after .closeExpiry s).heat.state = .running) ∧
    (let s : State := { seated .watch (laneIn .waiting) with trackTime := 20100 };
      (after .closeExpiry s).heat.state = .done) := by decide +kernel

theorem test_hyps_TimersExpire :
    (let s : State :=
        { inState .running with trackTime := 20100, gun := ⟨none, some 100, some 20100, false, false⟩,
                                heat := { heatOf .running with pulseEnd := some 20100 } };
      s.heat.state = .running ∧ s.heat.deadlineTime = some 20100 ∧ 0 ≤ stampDiff s.trackTime 20100 ∧
        s.heat.pulseEnd = some 20100 ∧ s.gun.lockoutEnd = some 20100 ∧ (after .deadlineExpiry s).heat.state = .done ∧
        (after .pulseEnd s).recallOut = false ∧ (after .lockoutEnd s).gun.lockoutEnd = none) ∧
    (let s : State :=
        { inState .running with trackTime := 20099, gun := ⟨none, some 100, some 20100, false, false⟩,
                                heat := { heatOf .running with pulseEnd := some 20100 } };
      s.heat.deadlineTime = some 20100 ∧ stampDiff s.trackTime 20100 < 0 ∧ s.heat.pulseEnd = some 20100 ∧
        s.gun.lockoutEnd = some 20100) := by decide +kernel

/-! ### Judgement and review -/

theorem test_hyps_ClassesAndCulprits :
    (let s := seated .watch { laneIn .reacted with rt := some 999 };
      s.lanes[(2 : LaneNo)].eligible = true ∧ s.lanes[(2 : LaneNo)].phase = .reacted ∧ s.lanes[(2 : LaneNo)].rt = some 999 ∧
        999 < (s.settings.falseLimit : Int) ∧ s.classOf 2 = some (.falseLane 999) ∧ s.culprits = [2] ∧
        s.earliestFalse = some 999 ∧ s.lanes[(0 : LaneNo)].eligible = false) ∧
    (let s := seated .watch { laneIn .reacted with rt := some 1000 };
      s.lanes[(2 : LaneNo)].phase = .reacted ∧ (s.settings.falseLimit : Int) ≤ 1000 ∧ s.classOf 2 = some (.clean 1000) ∧
        s.culprits = []) ∧
    (let s := seated .watch { laneIn .moved with rt := some (-9999) };
      s.lanes[(2 : LaneNo)].phase = .moved ∧ s.lanes[(2 : LaneNo)].rt = some (-9999) ∧
        s.classOf 2 = some (.falseLane (-9999))) ∧
    (seated .watch (laneIn .waiting)).lanes[(2 : LaneNo)].phase = .waiting ∧
    (seated .watch (laneIn .unsure)).lanes[(2 : LaneNo)].phase = .unsure ∧
    (seated .watch (laneIn .settling)).lanes[(2 : LaneNo)].phase = .settling := by decide +kernel

/-- ClassesAndCulprits, OutcomeReportAndWarning: one lane false alone, so that every other lane's class is no false one. -/
theorem test_hyps_Culprits :
    (let s := seated .watch { laneIn .reacted with rt := some 999 };
      (∃ i : LaneNo, s.classOf i = some (.falseLane 999)) ∧
        ∀ (i : LaneNo) (rt : Int), s.classOf i = some (.falseLane rt) → 999 ≤ rt) ∧
    (let s := seated .watch (laneIn .waiting);
      ∀ (i : LaneNo) (rt : Int), s.classOf i ≠ some (.falseLane rt)) := by
  refine ⟨⟨⟨2, by decide +kernel⟩, ?_⟩, ?_⟩
  · intro i rt h
    have k : ∀ i : LaneNo, (seated .watch { laneIn .reacted with rt := some 999 }).classOf i = none ∨
        (seated .watch { laneIn .reacted with rt := some 999 }).classOf i = some (.falseLane 999) := by decide +kernel
    rcases k i with k | k <;> rw [k] at h
    · cases h
    · cases h
      exact le_refl _
  · intro s i rt h
    have k : ∀ i : LaneNo, s.classOf i = none ∨ s.classOf i = some .noReaction := by decide +kernel
    rcases k i with k | k <;> rw [k] at h <;> cases h

/-- ResultsAndCharges: a culprit under each policy, of each standing that may be judged, with and without a warning. -/
theorem test_hyps_ResultsAndCharges :
    (let s := seated .watch { laneIn .reacted with rt := some 999 };
      s.heat.id = some ⟨212, .field⟩ ∧ s.heat.warning = none ∧ s.lanes[(2 : LaneNo)].entry = some (athlete .eligible []) ∧
        s.lanes[(2 : LaneNo)].eligible = true ∧ s.classOf 2 = some (.falseLane 999) ∧ (2 : LaneNo) ∈ s.culprits ∧
        (0 : LaneNo) ∉ s.culprits) ∧
    (let l : Lane := { laneIn .moved with rt := some (-9999), entry := some (athlete .cautioned [charge .caution true]) };
      let s : State := { seated .watch l with heat := { heatOf .watch with id := some ⟨212, .caution⟩ } };
      s.heat.id = some ⟨212, .caution⟩ ∧ s.lanes[(2 : LaneNo)].eligible = true ∧ (2 : LaneNo) ∈ s.culprits ∧
        (s.judge.lanes[(2 : LaneNo)].entry.map Entry.standing) = some .disqualified) ∧
    (let s : State :=
        { seated .watch { laneIn .moved with rt := some 0 } with
          heat := { heatOf .watch with warning := some ⟨1, [4], true⟩ } };
      s.heat.warning ≠ none ∧ (2 : LaneNo) ∈ s.culprits ∧
        (s.judge.lanes[(2 : LaneNo)].entry.map Entry.standing) = some .disqualified) := by decide +kernel

theorem test_hyps_OutcomeReportAndWarning :
    (let s := seated .watch { laneIn .reacted with rt := some 999 };
      s.heat.id = some ⟨212, .field⟩ ∧ s.heat.warning = none ∧ s.culprits ≠ []) ∧
    (let s : State := { seated .watch (laneIn .waiting) with heat := { heatOf .watch with issued := some ⟨.starter, 90⟩ } };
      s.culprits = [] ∧ s.heat.issued = some ⟨.starter, 90⟩ ∧ s.outcome = .starterRecall) ∧
    (let s : State := { seated .watch (laneIn .unsure) with heat := { heatOf .watch with issued := some ⟨.equipment, 90⟩ } };
      s.culprits = [] ∧ s.heat.issued = some ⟨.equipment, 90⟩ ∧ s.outcome = .equipmentRecall) ∧
    ((seated .watch (laneIn .waiting)).culprits = [] ∧ (seated .watch (laneIn .waiting)).heat.issued = none) ∧
    ({ heatOf .watch with warning := some ⟨1, [4], true⟩ } : Heat).warning = some ⟨1, [4], true⟩ := by decide +kernel

theorem test_hyps_ImposeCharge :
    (let s := seated .review (laneIn .off);
      s.collecting = true ∧ s.heat.state = .review ∧ (3 : Byte).toNat = laneNumber 2 ∧ (10 : Byte).toNat = laneNumber 9 ∧
        s.lanes[(9 : LaneNo)].entry = none ∧ s.lanes[(2 : LaneNo)].entry = some (athlete .eligible [])) ∧
    ((inState .watch).heat.state ≠ .running ∧ (inState .watch).heat.state ≠ .done ∧ (inState .watch).heat.state ≠ .review) ∧
    ((0 : Byte).toNat = 0 ∧ 10 < (11 : Byte).toNat ∧ 1 < (2 : Byte).toNat) ∧
    (athlete .cautioned [charge .caution false]).standing = .cautioned ∧
    (∃ c ∈ (athlete .cautioned [charge .caution false]).charges, c.effect = .caution) ∧
    (athlete .disqualified [charge .disqualify false]).standing = .disqualified := by
  refine ⟨by decide +kernel, by decide, by decide, rfl, ⟨_, List.mem_singleton.2 rfl, rfl⟩, rfl⟩

theorem test_imposeCharge :
    (let s := seated .review { Lane.cleared with entry := some (athlete .cautioned [charge .caution false]) };
      answer (exec (.imposeCharge 3 0) s) = some .duplicate ∧ answer (exec (.imposeCharge 3 1) s) = some .done ∧
        answer (exec (.imposeCharge 3 2) s) = some .badArgument ∧ answer (exec (.imposeCharge 10 1) s) = some .notFound) := by
  decide +kernel

/-- RescindCommands: lists that keep the law of R8, with a final and a newer entry; a warning final and not. -/
theorem test_hyps_RescindCommands :
    (let e := athlete .disqualified [charge .caution true, charge .disqualify false];
      let s := seated .review { Lane.cleared with entry := some e };
      s.ChargeLaw ∧ s.collecting = true ∧ s.heat.state = .review ∧ (3 : Byte).toNat = laneNumber 2 ∧
        s.lanes[(2 : LaneNo)].entry = some e ∧ e.charges = [charge .caution true] ++ [charge .disqualify false] ∧
        (charge .disqualify false).final = false) ∧
    (let e := athlete .cautioned [charge .caution true];
      let s := seated .done { Lane.cleared with entry := some e };
      s.ChargeLaw ∧ s.lanes[(2 : LaneNo)].entry = some e ∧ e.charges = [] ++ [charge .caution true] ∧
        (charge .caution true).final = true) ∧
    (let s := seated .running (laneIn .off);
      s.ChargeLaw ∧ s.lanes[(9 : LaneNo)].entry = none ∧ (10 : Byte).toNat = laneNumber 9 ∧ s.heat.warning = none) ∧
    (let s : State := { inState .review with heat := { heatOf .review with warning := some ⟨1, [2], false⟩ } };
      s.collecting = true ∧ s.heat.warning = some ⟨1, [2], false⟩) := by
  have law : ∀ (h : HeatState) (e : Entry), e.lawful → (seated h { Lane.cleared with entry := some e }).ChargeLaw := by
    intro h e he i f hf
    by_cases hi : i = 2
    · subst hi
      simp [seated] at hf
      exact hf ▸ he
    · have : (seated h { Lane.cleared with entry := some e }).lanes[i] = Lane.cleared := by simp [seated, hi]
      rw [this] at hf
      simp [Lane.cleared] at hf
  refine ⟨⟨law _ _ (by simp [Entry.lawful, athlete, charge]), by decide +kernel⟩,
    ⟨law _ _ (by simp [Entry.lawful, athlete, charge]), by decide +kernel⟩,
    ⟨law _ _ (by simp [Entry.lawful, athlete]), by decide +kernel⟩, by decide +kernel⟩

theorem test_rescind :
    (let s := seated .review { Lane.cleared with
        entry := some (athlete .disqualified [charge .caution true, charge .disqualify false]) };
      (after (.rescindCharge 3) s).lanes[2].entry = some (athlete .cautioned [charge .caution true])) ∧
    (let s := seated .review { Lane.cleared with entry := some (athlete .cautioned [charge .caution true]) };
      answer (exec (.rescindCharge 3) s) = some .final) ∧
    answer (exec .rescindFieldWarning (inState .review)) = some .notFound := by decide +kernel

/-! ### The gun -/

theorem test_hyps_GunLine :
    (let s := inState .set;
      s.gun.lineLow = false ∧ s.inReset = false ∧ s.gun.qualification = none ∧ s.gun.lockoutEnd = none) ∧
    (let s : State := { inState .set with gun := ⟨none, some 100, some 600, false, false⟩ };
      s.gun.lineLow = false ∧ s.gun.lockoutEnd ≠ none) ∧
    (let s : State := { inState .set with gun := ⟨some ⟨100, 10⟩, none, none, false, true⟩ };
      s.gun.lineLow = true ∧ s.gun.qualification ≠ none) ∧
    (let s : State := { inState .set with gun := ⟨none, some 100, some 600, false, true⟩ };
      s.gun.lineLow = true ∧ s.gun.qualification = none) := by decide

/-- R76, R77, R79: an edge begins a qualification, and a release before its end is a glitch. -/
theorem test_gun_line : (after .gunEdge (inState .set)).gun.qualification = some ⟨100, 10⟩ ∧
    (after .gunRelease (after .gunEdge (inState .set))).noticePending .gunGlitch = true ∧
    (after .gunRelease (after .gunEdge (inState .set))).gun.qualification = none := by decide +kernel

/-- GunAcceptance, in each heat state but SET; one unit before the end of the qualification there is none. -/
theorem test_hyps_GunAcceptance (h : HeatState) :
    (let s : State := { inState h with gun := ⟨some ⟨100, 10⟩, none, none, false, true⟩, trackTime := 110 };
      s.gun.qualification = some ⟨100, 10⟩ ∧ s.gun.lineLow = true ∧
        0 ≤ stampDiff s.trackTime ((100 : Stamp) + BitVec.ofNat 32 10) ∧ s.heat.state = h) ∧
    (let s : State := { inState h with gun := ⟨some ⟨100, 10⟩, none, none, false, true⟩, trackTime := 109 };
      s.gun.qualification = some ⟨100, 10⟩ ∧ stampDiff s.trackTime ((100 : Stamp) + BitVec.ofNat 32 10) < 0) := by
  cases h <;> decide +kernel

theorem test_gunAcceptance :
    (let s : State := { inState .watch with gun := ⟨some ⟨200, 10⟩, none, none, false, true⟩, trackTime := 210 };
      (after .gunAcceptance s).heat.issued = some ⟨.starter, 210⟩ ∧ (after .gunAcceptance s).gun.lockoutEnd = some 700) ∧
    (let s : State := { inState .done with gun := ⟨some ⟨200, 10⟩, none, none, false, true⟩, trackTime := 210 };
      (after .gunAcceptance s).noticePending .gunOutOfTurn = true) := by decide +kernel

/-- GunStartsAttempt: lanes SETTLED, SETTLING with a block that fits, just not, and none, and MOVED (R104, R120). -/
theorem test_hyps_GunStartsAttempt :
    (let s : State := { seated .set (laneIn .settled) with gun := ⟨some ⟨100, 10⟩, none, none, true, true⟩, trackTime := 110 };
      s.heat.state = .set ∧ s.gun.qualification = some ⟨100, 10⟩ ∧ s.gun.lineLow = true ∧
        0 ≤ stampDiff s.trackTime ((100 : Stamp) + BitVec.ofNat 32 10) ∧ s.lanes[(2 : LaneNo)].eligible = true ∧
        s.lanes[(2 : LaneNo)].phase = .settled ∧ s.lanes[(0 : LaneNo)].eligible = false ∧
        ∀ i : LaneNo, s.lanes[i].eligible = true → s.lanes[i].phase ≠ .moved) ∧
    (let l : Lane := { laneIn .settling with lastBlock := some ⟨7596, 594⟩ };
      (seated .set l).lanes[(2 : LaneNo)].phase = .settling ∧ (seated .set l).lanes[(2 : LaneNo)].lastBlock = some ⟨7596, 594⟩ ∧
        7596 + 594 ≤ 8190) ∧
    (let l : Lane := { laneIn .settling with lastBlock := some ⟨7597, 594⟩ };
      (seated .set l).lanes[(2 : LaneNo)].lastBlock = some ⟨7597, 594⟩ ∧ 8190 < 7597 + 594) ∧
    (let l : Lane := { laneIn .moved with onset := some 90 };
      (seated .set l).lanes[(2 : LaneNo)].phase = .moved ∧ (seated .set l).lanes[(2 : LaneNo)].onset = some 90 ∧
        (seated .set l).lanes[(2 : LaneNo)].eligible = true) := by decide +kernel

theorem test_gun_starts_attempt :
    (let l : Lane := { laneIn .moved with onset := some 90 };
      let s : State := { seated .set l with gun := ⟨some ⟨100, 10⟩, none, none, false, true⟩, trackTime := 110 };
      (after .gunAcceptance s).heat.issued = some ⟨.falseStart, 110⟩ ∧ (after .gunAcceptance s).lanes[2].rt = some (-10) ∧
        (after .gunAcceptance s).heat.closeTime = some 3100) := by decide +kernel

/-! ### The links -/

theorem test_hyps_LinkAlignment :
    ((inState .idle).linkA.align = .search ∧ (inState .idle).inReset = false ∧ (0xC5A2 : BitVec 16) ≠ 0xC5A3) ∧
    (let s : State := { inState .idle with linkA := receiver .confirm 1 0 };
      s.inReset = false ∧ (s.link .a).align = .confirm ∧ (s.link .a).framePos = some 100 ∧ 0 ≤ stampDiff s.trackTime 100 ∧
        (s.link .a).frame = none ∧ (s.link .a).confirmCount < 2 ∧ (after (.framePosition .a false 0xC5A3) s).linkA.align = .confirm ∧
        (after (.framePosition .a false 0xC5A2) s).linkA.align = .search) ∧
    (let s : State := { inState .idle with linkA := receiver .confirm 2 0 };
      2 ≤ (s.link .a).confirmCount ∧ (after (.framePosition .a false 0xC5A3) s).linkA.align = .locked) ∧
    (let s : State := { inState .idle with linkA := receiver .locked 0 2 };
      (s.link .a).align = .locked ∧ (s.link .a).framePos = some 100 ∧ 0 ≤ stampDiff s.trackTime 100 ∧
        (s.link .a).frame = none ∧ 2 ≤ (s.link .a).erroredCount ∧ (after (.framePosition .a false 0xC5A2) s).linkA.losses = 1 ∧
        (after (.framePosition .a true 0) s).linkA.align = .locked) ∧
    (let s : State := { inState .idle with linkA := receiver .locked 0 1, trackTime := 99 };
      (s.link .a).erroredCount < 2 ∧ stampDiff s.trackTime 100 < 0) ∧
    (let s : State := { inState .idle with linkA := { receiver .disabled 0 0 with framePos := none } };
      (s.link .a).align = .disabled ∧ (after (.lineTransition .a) s).linkA.lastTransition = 0 ∧
        (after (.lineTransition .a) s).linkA.lineHigh = true) ∧
    (let s := { inState .idle with inReset := true };
      s.inReset = true ∧ (after (.lineTransition .a) s).linkA.lastTransition = 0 ∧
        (after (.lineTransition .a) s).linkA.lineHigh = true ∧ after (.searchWordFound .a 0xC5A3) s = s) := by decide +kernel

theorem test_link_events :
    (after (.searchWordFound .a 0xC5A3) (inState .idle)).linkA.framePos = some 105 ∧
    (after (.lineTransition .b) (inState .idle)).linkB.lastTransition = 100 ∧
    (after (.lineTransition .b) (inState .idle)).linkB.lineHigh = true := by decide +kernel

/-- LinkLoss: silence at and one unit before its limit, and the lanes it reaches. -/
theorem test_hyps_LinkLoss :
    (let s : State := { seated .watch (laneIn .waiting) with linkA := { receiver .locked 0 0 with lastTransition := 80 } };
      (s.link .a).align = .locked ∧ 0 ≤ stampDiff s.trackTime ((s.link .a).lastTransition + 20) ∧
        (s.settings.slotOf .a 2).isSome = true ∧ s.heat.state = .watch ∧ s.lanes[(2 : LaneNo)].phase = .waiting ∧
        s.settings.slotOf .a 9 = none ∧ (after (.linkSilence .a) s).lanes[2].phase = .unsure ∧
        (after (.linkSilence .a) s).heat.issued = some ⟨.equipment, 100⟩) ∧
    (let s : State := { seated .set (laneIn .settled) with linkA := { receiver .locked 0 0 with lastTransition := 81 } };
      stampDiff s.trackTime ((s.link .a).lastTransition + 20) < 0 ∧ s.heat.state = .set ∧
        s.lanes[(2 : LaneNo)].phase = .settled) := by decide +kernel

theorem test_hyps_Slots :
    (let s := inState .set;
      s.settings.slotOf .a 0 = some 0 ∧ s.settings.slotOf .a 4 = some 4 ∧ s.settings.slotOf .b 9 = some 4 ∧
        s.settings.canEnter 9 = true) ∧
    (let w : BitVec 40 := (0x001 : BitVec 12) ++ (0x002 : BitVec 12) ++ BitVec.ofBool false ++ BitVec.ofBool false ++
        BitVec.ofBool false ++ BitVec.ofBool true ++ (7 : BitVec 4) ++ (0 : BitVec 8);
      let v : BitVec 40 := w ||| (slotCrc w).setWidth 40;
      slotCheck v = slotCrc v ∧ slotPresent v = true ∧ judgeSlot (some 6) v = ⟨some 3, some 7, false, false⟩ ∧
        judgeSlot (some 5) v = ⟨some 3, some 7, false, true⟩ ∧ judgeSlot (some 7) v = ⟨none, some 7, false, false⟩ ∧
        judgeSlot (some 6) (v ^^^ 1) = ⟨none, some 6, true, false⟩ ∧ judgeSlot (some 6) 0 = ⟨none, some 6, false, false⟩) := by
  decide +kernel

/-- FrameArrival: a frame at its arrival, and one unit before. -/
theorem test_hyps_FrameArrival :
    (let s : State := { seated .set (laneIn .settling) with linkA := { receiver .locked 0 0 with frame := some ⟨96, 93, true⟩ } };
      s.inReset = false ∧ (s.link .a).frame = some ⟨96, 93, true⟩ ∧ 0 ≤ stampDiff s.trackTime ((96 : Stamp) + 4) ∧
        (after (.frameArrival .a (Vector.replicate 6 0)) s).linkA.frame = none ∧
        (after (.frameArrival .a (Vector.replicate 6 0)) s).lanes[2].block.count = 1) ∧
    (let s : State := { inState .set with linkA := { receiver .locked 0 0 with frame := some ⟨97, 94, true⟩ } };
      (s.link .a).frame = some ⟨97, 94, true⟩ ∧ stampDiff s.trackTime ((97 : Stamp) + 4) < 0) ∧
    (inState .set).linkA.frame = none ∧
    (let s : State := { inState .set with inReset := true, linkA := { receiver .locked 0 0 with frame := some ⟨96, 93, true⟩ } };
      s.inReset = true ∧ (s.link .a).frame = some ⟨96, 93, true⟩ ∧ after (.frameArrival .a (Vector.replicate 6 0)) s = s) := by
  decide +kernel

/-! ### Lane sensing -/

/-- A lane that detects against the level 1,000, with a run count and what a run holds. -/
def detecting (p : Phase) (count : Nat) (start pred last : Option SamplePoint) : Lane :=
  { laneIn p with
    baseline := some ⟨850, 1000, .settled, true⟩, runCount := count, runStart := start, predecessor := pred,
    lastJudged := last }

theorem test_hyps_Samples :
    (HeatState.idle ≠ .set ∧ HeatState.idle ≠ .watch ∧ Lane.cleared.phase = .off ∧ (laneIn .moved).phase = .moved) ∧
    (let c := Settings.defaults;
      c.staleLimit ≤ ({ laneIn .settling with heldCount := 7 } : Lane).heldCount + 1 ∧
        ({ laneIn .settled with heldCount := 6 } : Lane).heldCount + 1 < c.staleLimit ∧
        (∃ n, (detecting .settled 0 none none none).detect c ⟨100, 999⟩ = (n, none)) ∧
        (∃ n, (detecting .settled 2 (some ⟨90, 1010⟩) (some ⟨85, 990⟩) (some ⟨95, 1005⟩)).detect c ⟨100, 1000⟩ =
          (n, some 88)) ∧
        (laneIn .waiting).phase ≠ .off ∧ (laneIn .reacted).phase ≠ .waiting ∧ (laneIn .settling).phase = .settling) := by
  refine ⟨by decide, by decide +kernel, by decide +kernel, ⟨_, Prod.ext rfl (by decide +kernel)⟩,
    ⟨_, Prod.ext rfl (by decide +kernel)⟩, by decide, by decide, rfl⟩

/-- Detection: no level; below, at the level with no run, in a run, at the confirmation, and after a lapse (R112). -/
theorem test_hyps_Detection :
    (let c := Settings.defaults;
      2 ≤ c.confirmCount ∧ (laneIn .waiting).baseline = none ∧
        (detecting .waiting 0 none none none).baseline = some ⟨850, 1000, .settled, true⟩ ∧ 999 < 1000 ∧
        (let l := detecting .waiting 1 (some ⟨75, 1000⟩) none (some ⟨75, 1000⟩);
          l.runStart.any (fun q => decide ((5 * (c.confirmCount + 2) : Int) < stampDiff 100 q.time)) = false ∧ l.runCount = 1 ∧
            1 + 1 < c.confirmCount) ∧
        (let l := detecting .waiting 1 (some ⟨74, 1000⟩) none (some ⟨74, 1000⟩);
          l.runStart.any (fun q => decide ((5 * (c.confirmCount + 2) : Int) < stampDiff 100 q.time)) = true) ∧
        (let l := detecting .waiting 2 (some ⟨90, 1000⟩) none (some ⟨95, 1000⟩);
          l.runStart = some ⟨90, 1000⟩ ∧ c.confirmCount ≤ l.runCount + 1)) := by
  decide +kernel

/-- R114, R115: the crossing between two samples, rounded a half up, at its ends, and with no bracket. -/
theorem test_hyps_OnsetStamp :
    (990 < 1000 ∧ 1000 ≤ 1010 ∧ 0 ≤ stampDiff (90 : Stamp) 85) ∧ onsetStamp 1000 ⟨90, 1010⟩ (some ⟨85, 990⟩) = 88 ∧
    onsetStamp 1000 ⟨90, 1000⟩ (some ⟨85, 999⟩) = 90 ∧ onsetStamp 1000 ⟨90, 1010⟩ (some ⟨85, 1000⟩) = 90 ∧
    onsetStamp 1000 ⟨90, 1010⟩ none = 90 := by decide +kernel

/-- Blocks: the 39th and the 40th sample, steady and not, with and without headroom (R93, R94, R95, R96). -/
theorem test_hyps_Blocks :
    (let c := Settings.defaults;
      ((⟨38, 1000, 1000, 38000⟩ : Block).join 1000).count < 40 ∧
        (let b := (⟨39, 1000, 1000, 39000⟩ : Block).join 1120;
          40 ≤ b.count ∧ b.maximum - b.minimum ≤ c.steadyBand ∧ b.sum / 40 + max c.thresholdFloor (b.sum / 40 * c.thresholdRatio / 256) ≤ 8190) ∧
        (let b := (⟨39, 1000, 1000, 39000⟩ : Block).join 1121;
          c.steadyBand < b.maximum - b.minimum) ∧
        (let b := (⟨39, 8190, 8190, 319410⟩ : Block).join 8190;
          b.maximum - b.minimum ≤ c.steadyBand ∧ 8190 < b.sum / 40 + max c.thresholdFloor (b.sum / 40 * c.thresholdRatio / 256)) ∧
        ({ laneIn .settling with settleCount := 1 } : Lane).settleCount + 1 < c.settleBlocks ∧
        c.settleBlocks ≤ ({ laneIn .settling with settleCount := 2 } : Lane).settleCount + 1 ∧
        0 < (detecting .settled 1 none none none).runCount ∧ (detecting .settled 0 none none none).runCount = 0) := by
  decide +kernel

/-- A lane settles at the end of its third steady block (R94). -/
theorem test_settle :
    (let l : Lane := { laneIn .settling with settleCount := 2, block := ⟨39, 3000, 3040, 117780⟩ };
      (l.joinBlock Settings.defaults 3020).phase = .settled ∧
        (l.joinBlock Settings.defaults 3020).baseline = some ⟨3020, 3255, .settled, true⟩) := by decide +kernel

/-! ### The laws kept by a step -/

/-- A watch window with one lane WAITING: every premise of the laws kept (O52 to O57) holds of it, and it steps. -/
def watching : State := seated .watch (detecting .waiting 0 none none none)

theorem watching_lane (i : LaneNo) (h : i ≠ 2) : watching.lanes[i] = Lane.cleared := by simp [watching, seated, h]

theorem test_hyps_RosterLawsKept : watching.ChargeLaw ∧ watching.RosterLaw ∧ ∃ t, step watching = .next t := by
  refine ⟨fun i e he => ?_, ⟨fun i he => ?_, ?_, by decide +kernel⟩, _, rfl⟩
  · by_cases hi : i = 2
    · subst hi
      simp [watching, seated, detecting, laneIn] at he
      subst he
      simp [Entry.lawful, athlete]
    · rw [watching_lane i hi] at he
      cases he
  · by_cases hi : i = 2
    · subst hi
      exact ⟨by decide +kernel, .a, by decide +kernel⟩
    · rw [watching_lane i hi] at he
      cases he
  · intro h
    cases h

theorem test_hyps_HeatLawsKept : watching.HeatLaw ∧ watching.FinalityLaw ∧ watching.PhaseLaw := by
  refine ⟨test_hyps_HeatLaw .watch _, ⟨fun i e he => ?_, fun w hw => by cases hw⟩, ?_⟩
  · by_cases hi : i = 2
    · subst hi
      simp [watching, seated, detecting, laneIn] at he
      subst he
      simp [athlete]
    · rw [watching_lane i hi] at he
      cases he
  · have law : ∀ i : LaneNo, watching.lanes[i].watchLawful := by
      intro i
      by_cases hi : i = 2
      · subst hi
        simp [watching, seated, detecting, laneIn, Lane.watchLawful, Lane.eligible, athlete, Lane.detecting, Lane.level?]
      · rw [watching_lane i hi]
        simp [Lane.watchLawful, Lane.cleared, Lane.eligible]
    have calm : ∀ i : LaneNo, watching.falseRt i = none := by decide +kernel
    refine ⟨?_, ?_, ?_, fun _ => law, fun _ h => ?_, fun _ r h => ?_⟩
    · rintro ((h | h) | h) <;> cases h
    · intro h
      cases h
    · intro h
      cases h
    · obtain ⟨i, h⟩ := h
      rw [calm i] at h
      cases h
    · cases h

theorem test_hyps_JudgementLawsKept : watching.ReportLaw ∧ watching.WarningLaw ∧ watching.RtLaw := by
  refine ⟨⟨?_, ?_, ?_, ?_, ?_⟩, ?_, ⟨fun i rt h => ?_, fun i e r he h => ?_, fun i e he c hc => ?_, ?_⟩⟩
  any_goals
    intro r h
    cases h
  all_goals by_cases hi : i = 2
  all_goals first
    | (subst hi
       simp [watching, seated, detecting, laneIn, Lane.cleared] at h)
    | (subst hi
       simp [watching, seated, detecting, laneIn] at he
       subst he
       simp [athlete] at *)
    | (rw [watching_lane i hi] at h
       cases h)
    | (rw [watching_lane i hi] at he
       cases he)

theorem test_hyps_SensingAndOutputLawsKept : watching.SettingsLaw ∧ watching.LevelLaw ∧ watching.CountLaw ∧
    watching.PermitLaw ∧ watching.PulseLaw ∧ watching.GunLaw := by
  refine ⟨test_hyps_SettingsLaw .watch _, ⟨?_, fun _ i => ?_⟩, ⟨by decide +kernel, fun i f h => ?_, fun _ => by decide +kernel⟩, ?_,
    ?_, ⟨?_, ?_, ?_⟩⟩
  · rintro (h | h) <;> cases h
  · by_cases hi : i = 2
    · subst hi
      refine ⟨fun b h => ?_, fun k h => ?_⟩
      · simp [watching, seated, detecting] at h
        subst h
        decide +kernel
      · simp [watching, seated, detecting, laneIn, Lane.cleared] at h
    · rw [watching_lane i hi]
      exact ⟨fun b h => (nomatch h), fun k h => (nomatch h)⟩
  · by_cases hi : i = 2
    · subst hi
      simp [watching, seated, detecting, laneIn, Lane.cleared] at h
    · rw [watching_lane i hi] at h
      cases h
  · constructor
    · intro h
      cases h
    · rintro ⟨h, _⟩
      cases h
  · intro p h
    cases h
  · intro h
    cases h
  · intro h
    cases h
  · intro q h
    cases h

theorem test_hyps_LinkAndPortLawsKept : watching.LinkLaw ∧ watching.PortLaw := by
  refine ⟨fun l => ?_, ?_⟩
  · cases l <;> constructor <;> decide +kernel
  · constructor <;> simp [watching, seated, inState, collectingPort, Port.afterReset, State.reset]

/-- PortCodecRoundTrip: the bytes of a command, and the command of bytes. -/
theorem test_hyps_PortCodecRoundTrip : encodeCommand (.saveProfile true) = some [0x22] ∧
    encodeCommand (.enterLane 10 9999) = some [0x32, 0x0A, 0x27, 0x0F] ∧
    decodeCommand false [0x32, 0x0A, 0x27, 0x0F] = some (.enterLane 10 9999) := by decide

/-- FinalEntriesStay and HeatTransitions: a lawful heat in REVIEW with a final charge and a final warning, and its step. -/
theorem test_hyps_FinalEntriesStay :
    (let e := athlete .cautioned [charge .caution true];
      let s : State :=
        { seated .review { Lane.cleared with entry := some e } with
          heat := { heatOf .review with attempt := 2, warning := some ⟨1, [2], true⟩ },
          report := some { cleanReport with attempt := 2, outcome := .stoodUp } };
      s.HeatLaw ∧ s.FinalityLaw ∧ (∃ t, step s = .next t ∧ t.heat.state ≠ .idle) ∧ s.lanes[(2 : LaneNo)].entry = some e ∧
        charge .caution true ∈ e.charges ∧ (charge .caution true).final = true ∧ s.heat.warning = some ⟨1, [2], true⟩) := by
  refine ⟨?_, ⟨?_, ?_⟩, ⟨_, rfl, by decide +kernel⟩, by decide +kernel, by decide, rfl, rfl⟩
  · constructor <;>
      simp [heatOf, cleanReport, HeatState.early, HeatState.inAttempt, HeatState.stood, reviewState]
  · intro i e he c hc
    by_cases hi : i = 2
    · subst hi
      simp [seated] at he
      subst he
      simp [athlete, charge] at hc
      subst hc
      simp [finalityAt, heatOf, HeatState.early, HeatState.inAttempt]
    · simp [seated, hi, Lane.cleared] at he
  · intro w hw
    simp at hw
    subst hw
    simp [finalityAt, HeatState.early, HeatState.inAttempt, heatOf]

end Sys2Proof.Tests
end

section
/-! PROOFS. ENTER LANE (R16): which lanes may be entered, what entering a lane changes and what it leaves, what the owner answers
at each of its tests, and the statement O25 assembled from these. -/

namespace Sys2Proof.Proofs

open Sys2Proof.Machine Sys2Proof.Laws

/-! ### The lanes that may be entered (R6) -/

/-- Served by one of the links is served by link A or by link B. -/
theorem exists_serves_iff (c : Settings) (i : LaneNo) :
    (∃ l : LinkId, c.serves l i = true) ↔ c.serves .a i = true ∨ c.serves .b i = true := by
  constructor
  · rintro ⟨l, h⟩
    cases l with
    | a => exact .inl h
    | b => exact .inr h
  · rintro (h | h)
    · exact ⟨.a, h⟩
    · exact ⟨.b, h⟩

theorem canEnter_iff (c : Settings) (i : LaneNo) :
    c.canEnter i = true ↔ c.closed i = false ∧ ∃ l : LinkId, c.serves l i = true := by
  rw [exists_serves_iff]
  simp [Settings.canEnter]

theorem canEnter_eq_false_iff (c : Settings) (i : LaneNo) :
    c.canEnter i = false ↔ c.closed i = true ∨ ∀ l : LinkId, c.serves l i = false := by
  rw [← Bool.not_eq_true, canEnter_iff, not_and_or]
  simp

/-! ### What entering a lane changes, and what it leaves (R2, R9) -/

section Enter

variable (s : State) (i : LaneNo) (bib : Nat)

theorem enter_bibIndex : (s.enter i bib).bibIndex = indexInsert bib i s.bibIndex := rfl

theorem enter_lane (j : LaneNo) :
    (s.enter i bib).lanes[j] = if j = i then Lane.enter bib s.lanes[j] else s.lanes[j] :=
  changeLane_lane s i j (Lane.enter bib)

theorem enter_lane_same : (s.enter i bib).lanes[i] = Lane.enter bib s.lanes[i] := by
  rw [enter_lane, if_pos rfl]

theorem enter_lane_of_ne {j : LaneNo} (h : j ≠ i) : (s.enter i bib).lanes[j] = s.lanes[j] := by
  rw [enter_lane, if_neg h]

theorem enter_frame : { s.enter i bib with lanes := s.lanes, bibIndex := s.bibIndex } = s := rfl

/-- Over a lawful index a new bib stands between the smaller and the larger ones. -/
theorem enter_bibIndex_of_indexLaw (hl : s.IndexLaw) (hn : ∀ j, (bib, j) ∉ s.bibIndex) :
    (s.enter i bib).bibIndex =
      s.bibIndex.filter (fun p => p.1 < bib) ++ (bib, i) :: s.bibIndex.filter (fun p => bib < p.1) := by
  rw [enter_bibIndex, indexInsert_eq bib i s.bibIndex hl.sorted hn]

end Enter

/-! ### What the owner answers, test by test (R16) -/

section Owner

variable {lane : Byte} {bib : BitVec 16} {s : State} {i : LaneNo} {b : Nat}

theorem ownEnterLane_wrongState (hs : s.heat.state ≠ .roster) : ownEnterLane lane bib s = s.refuse .wrongState := by
  unfold ownEnterLane
  rw [if_pos hs]

/-- An argument out of range is refused whatever the other one is. -/
theorem ownEnterLane_badOperand (hs : s.heat.state = .roster) (hp : parseLane lane = none ∨ parseBib bib = none) :
    ownEnterLane lane bib s = s.refuse .badArgument := by
  unfold ownEnterLane
  rw [if_neg (not_not_intro hs)]
  split
  · next i b hi hb => simp [hi, hb] at hp
  · rfl

/-- In ROSTER, with both arguments in range, the tests of the lane and of the bib remain. -/
theorem ownEnterLane_parsed (hs : s.heat.state = .roster) (hi : parseLane lane = some i) (hb : parseBib bib = some b) :
    ownEnterLane lane bib s =
      if s.settings.canEnter i = false then s.refuse .badArgument
      else if (indexFind b s.bibIndex).isSome then s.refuse .duplicate
      else if s.lanes[i].entry.isSome then s.refuse .duplicate
      else (s.enter i b).succeed := by
  unfold ownEnterLane
  rw [if_neg (not_not_intro hs), hi, hb]

variable (hs : s.heat.state = .roster) (hi : parseLane lane = some i) (hb : parseBib bib = some b)
include hs hi hb

theorem ownEnterLane_notOpen (hc : s.settings.canEnter i = false) : ownEnterLane lane bib s = s.refuse .badArgument := by
  rw [ownEnterLane_parsed hs hi hb, if_pos hc]

theorem ownEnterLane_duplicate (hc : s.settings.canEnter i = true)
    (hd : (∃ j, (b, j) ∈ s.bibIndex) ∨ s.lanes[i].entry ≠ none) : ownEnterLane lane bib s = s.refuse .duplicate := by
  rw [ownEnterLane_parsed hs hi hb, if_neg (by simp [hc])]
  split
  · rfl
  · next hfree =>
    have hentered : s.lanes[i].entry ≠ none := hd.resolve_left (mt (indexFind_isSome b s.bibIndex).2 hfree)
    rw [if_pos (Option.isSome_iff_ne_none.2 hentered)]

theorem ownEnterLane_enters (hc : s.settings.canEnter i = true) (hn : ∀ j, (b, j) ∉ s.bibIndex)
    (hv : s.lanes[i].entry = none) : ownEnterLane lane bib s = (s.enter i b).succeed := by
  have hfree : ¬ (indexFind b s.bibIndex).isSome = true := fun h => by
    obtain ⟨j, hj⟩ := (indexFind_isSome b s.bibIndex).1 h
    exact hn j hj
  rw [ownEnterLane_parsed hs hi hb, if_neg (by simp [hc]), if_neg hfree,
    if_neg (Option.not_isSome_iff_eq_none.2 hv)]

end Owner

/-! ### The command -/

/-- ENTER LANE, collected, is answered with what its owner gives. -/
theorem exec_enterLane_of_own {lane : Byte} {bib : BitVec 16} {s : State} {o : Owned} (hc : s.collecting = true)
    (ho : ownEnterLane lane bib s = o) : exec (.enterLane lane bib) s = .next (State.answered 0x32 3 o) :=
  (exec_enterLane lane bib s).trans (receive_eq hc rfl rfl ho)

/-- Settles O25: each test of R16 by the owner's answer at it, and the effect by the rules of `State.enter`. -/
theorem enterLane : Obligations.EnterLane := by
  unfold Obligations.EnterLane
  intro lane bib s hc hl
  refine ⟨fun hs => exec_enterLane_of_own hc (ownEnterLane_wrongState hs), fun hs => ⟨fun hbad => ?_, ?_⟩⟩
  · refine exec_enterLane_of_own hc (ownEnterLane_badOperand hs ?_)
    rcases hbad with h | h | h | h
    · exact .inl (parseLane_none (.inl h))
    · exact .inl (parseLane_none (.inr h))
    · exact .inr (parseBib_none (.inl h))
    · exact .inr (parseBib_none (.inr h))
  · intro i hlane hlo hhi
    have hi : parseLane lane = some i := parseLane_some hlane
    have hb : parseBib bib = some bib.toNat := parseBib_some hlo hhi
    refine ⟨fun hno => ?_, fun hopen hserved => ?_⟩
    · exact exec_enterLane_of_own hc (ownEnterLane_notOpen hs hi hb ((canEnter_eq_false_iff _ _).2 hno))
    · have hcan : s.settings.canEnter i = true := (canEnter_iff _ _).2 ⟨hopen, hserved⟩
      refine ⟨fun hd => exec_enterLane_of_own hc (ownEnterLane_duplicate hs hi hb hcan hd), fun hn hv => ?_⟩
      exact ⟨s.enter i bib.toNat, exec_enterLane_of_own hc (ownEnterLane_enters hs hi hb hcan hn hv),
        enter_bibIndex_of_indexLaw s i _ hl hn, enter_lane_same s i _, fun _ hj => enter_lane_of_ne s i _ hj,
        enter_frame s i _⟩

end Sys2Proof.Proofs
end

section
/-! PROOFS. The judgement's classes, culprits and provoked lanes (R131, R133): the class by phase and RT, the two lists by the
earliest false RT, and the statement O34 assembled from these. -/

namespace Sys2Proof.Proofs

open Sys2Proof.Machine Sys2Proof.Laws

/-! ### The class of a lane (R129, R131, Table 7-2) -/

section Class

variable {c : Settings} {l : Lane} {rt : Int}

theorem classify_reacted (hp : l.phase = .reacted) (hr : l.rt = some rt) :
    l.classify c = if rt < c.falseLimit then .falseLane rt else .clean rt := by
  simp [Lane.classify, hp, hr, Machine.isFalse]

theorem classify_moved (hp : l.phase = .moved) (hr : l.rt = some rt) : l.classify c = .falseLane rt := by
  simp [Lane.classify, hp, hr]

theorem classify_waiting (hp : l.phase = .waiting) : l.classify c = .noReaction := by
  simp [Lane.classify, hp]

theorem classify_unsure (hp : l.phase = .unsure ∨ l.phase = .settling) : l.classify c = .unsure := by
  rcases hp with hp | hp <;> simp [Lane.classify, hp]

end Class

section Lists

variable {s : State} {i : LaneNo}

theorem classOf_eligible (h : s.lanes[i].eligible = true) : s.classOf i = some (s.lanes[i].classify s.settings) :=
  if_pos h

theorem classOf_not_eligible (h : s.lanes[i].eligible = false) : s.classOf i = none :=
  if_neg (Bool.eq_false_iff.1 h)

/-! ### The false lanes and the earliest of them (R133) -/

theorem falseRt_iff {rt : Int} : s.falseRt i = some rt ↔ s.classOf i = some (.falseLane rt) :=
  ⟨falseRt_some, fun h => by rw [State.falseRt, h]; rfl⟩

theorem falseRt_none_of_no_false (h : ∀ (i : LaneNo) (rt : Int), s.classOf i ≠ some (.falseLane rt)) (i : LaneNo) :
    s.falseRt i = none :=
  Option.eq_none_iff_forall_ne_some.2 fun rt hrt => h i rt (falseRt_iff.1 hrt)

/-- With no false lane there is no culprit and no provoked lane. -/
theorem lists_of_no_false (h : ∀ i, s.falseRt i = none) : s.culprits = [] ∧ s.provoked = [] ∧ s.earliestFalse = none := by
  refine ⟨List.eq_nil_iff_forall_not_mem.2 fun i hi => ?_, List.eq_nil_iff_forall_not_mem.2 fun i hi => ?_,
    (earliestFalse_none s).2 h⟩
  · obtain ⟨rt, _, hrt, _⟩ := (isCulprit_iff s i).1 ((mem_culprits s i).1 hi)
    simp [h i] at hrt
  · simp [State.isProvoked, h i] at hi

/-! ### Culprits and provoked lanes, by the earliest false RT (R133) -/

theorem mem_culprits_of_earliest {E : Int} (hE : s.earliestFalse = some E) :
    i ∈ s.culprits ↔ ∃ rt, s.classOf i = some (.falseLane rt) ∧ rt ≤ E + s.settings.tieTolerance := by
  rw [mem_culprits, isCulprit_iff]
  simp only [hE, Option.some.injEq, falseRt_iff]
  exact ⟨fun ⟨rt, _, hc, he, hle⟩ => ⟨rt, hc, he ▸ hle⟩, fun ⟨rt, hc, hle⟩ => ⟨rt, E, hc, rfl, hle⟩⟩

/-- A provoked lane is a false lane that is no culprit. -/
theorem mem_provoked_iff : i ∈ s.provoked ↔ (∃ rt, s.classOf i = some (.falseLane rt)) ∧ i ∉ s.culprits := by
  simp [State.isProvoked, Option.isSome_iff_exists, falseRt_iff]

theorem mem_provoked_of_earliest {E : Int} (hE : s.earliestFalse = some E) :
    i ∈ s.provoked ↔ ∃ rt, s.classOf i = some (.falseLane rt) ∧ E + s.settings.tieTolerance < rt := by
  rw [mem_provoked_iff, mem_culprits_of_earliest hE]
  constructor
  · rintro ⟨⟨rt, hc⟩, hn⟩
    exact ⟨rt, hc, not_le.1 fun hle => hn ⟨rt, hc, hle⟩⟩
  · rintro ⟨rt, hc, hlt⟩
    refine ⟨⟨rt, hc⟩, fun ⟨x, hx, hle⟩ => ?_⟩
    obtain rfl : rt = x := by simpa [hc] using hx
    exact absurd hle (not_le.2 hlt)

end Lists

/-- The lanes that a test selects are in ascending order (R12). -/
theorem allLanes_filter_ascending (p : LaneNo → Bool) : (allLanes.filter p).Pairwise (· < ·) :=
  List.Pairwise.filter p (by decide)

/-- Settles O34: each row of Table 7-2 by the phase, and the lists by the earliest false RT. -/
theorem classesAndCulprits : Obligations.ClassesAndCulprits := by
  unfold Obligations.ClassesAndCulprits
  refine ⟨fun s i => ⟨classOf_not_eligible, fun he => ?_⟩,
    fun s => ⟨fun h => lists_of_no_false (falseRt_none_of_no_false h), fun E ⟨j, hj⟩ hmin => ?_,
      allLanes_filter_ascending _, allLanes_filter_ascending _⟩⟩
  · rw [classOf_eligible he]
    refine ⟨fun rt hp hr => ?_, fun rt hp hr => congrArg some (classify_moved hp hr),
      fun hp => congrArg some (classify_waiting hp), fun hp => congrArg some (classify_unsure hp)⟩
    rw [classify_reacted hp hr]
    exact ⟨fun hlt => by rw [if_pos hlt], fun hle => by rw [if_neg (not_lt.2 hle)]⟩
  · have hfalse : s.falseRt j = some E := falseRt_iff.2 hj
    have hE : s.earliestFalse = some E :=
      (earliestFalse_iff s E).2 ⟨⟨j, hfalse⟩, fun i x hx => hmin i x (falseRt_iff.1 hx)⟩
    exact ⟨hE, culprits_ne_nil (Option.isSome_iff_exists.2 ⟨E, hfalse⟩), fun _ => mem_culprits_of_earliest hE,
      fun _ => mem_provoked_of_earliest hE⟩

end Sys2Proof.Proofs
end

section
/-! PROOFS. The laws of the attempt report, the field warning and reaction times (R143, R139, R117): what an effect does to each
of the three records, that the judgement's own records meet the laws, and the statement O55 assembled from these. -/

namespace Sys2Proof.Proofs

open Sys2Proof.Machine Sys2Proof.Laws

/-! ### The state that a close judges (R44) -/

/-- The state at stage 3 of a close: the close timer is cleared and the attempt has ended. -/
def atClose (s : State) : State := (s.withHeat { s.heat with closeTime := none }).endAttempt

section AtClose

variable (s : State)

theorem closeAttempt_report_atClose : s.closeAttempt.report = some (atClose s).closeReport := closeAttempt_report s
theorem closeAttempt_lanes_atClose : s.closeAttempt.lanes = (atClose s).judge.lanes := closeAttempt_lanes s
theorem closeAttempt_warning_atClose : s.closeAttempt.heat.warning = (atClose s).warningAfter := by
  rw [closeAttempt_heat]
  rfl
theorem closeAttempt_id : s.closeAttempt.heat.id = s.heat.id := by
  rw [closeAttempt_heat]

theorem atClose_lane (i : LaneNo) :
    (atClose s).lanes[i] = if s.lanes[i].eligible then s.lanes[i].attemptEnded else s.lanes[i] :=
  endAttempt_getElem _ i.val i.isLt

theorem atClose_rt (i : LaneNo) : (atClose s).lanes[i].rt = s.lanes[i].rt := by
  rw [atClose_lane]
  split <;> rfl

theorem atClose_entry (i : LaneNo) : (atClose s).lanes[i].entry = s.lanes[i].entry := by
  rw [atClose_lane]
  split <;> rfl

end AtClose

/-! ### What an effect does to the report and to the field warning -/

/-- A gun taken starts an attempt, recalls, or is out of turn (R35, R37, R38, R81). -/
theorem takeGun_cases (s : State) (g : Stamp) :
    s.takeGun g = s.startAttempt g ∨ s.takeGun g = s.starterRecall ∨ s.takeGun g = s.raise .gunOutOfTurn := by
  unfold State.takeGun
  split
  · exact .inl rfl
  · exact .inr (.inl rfl)
  · exact .inr (.inl rfl)
  · exact .inr (.inr rfl)

/-- A starter's recall keeps the report or amends it (R147). -/
theorem starterRecall_report_cases (s : State) :
    s.starterRecall.report = s.report ∨ s.starterRecall.report = s.amendReport.report := by
  rw [starterRecall_report]
  split
  · exact .inr rfl
  · exact .inl rfl

theorem starterRecall_id (s : State) : s.starterRecall.heat.id = s.heat.id := by
  rw [starterRecall_heat]
  split <;> simp

theorem starterRecall_warning (s : State) : s.starterRecall.heat.warning = s.heat.warning := by
  rw [starterRecall_heat]
  split <;> simp

/-- The report is kept, retired, amended by a starter's recall, or written by a stand-up or a close (R142, R146, R147). -/
theorem effect_report {s u : State} (h : RecordEffect s u) :
    u.report = s.report ∨ u.report = none ∨ u.report = s.amendReport.report ∨
      u.report = some s.endAttempt.standUpReport ∨ u.report = some (atClose s).closeReport := by
  cases h
  case softReset => exact .inr (.inl (softReset_report s))
  case fullReset => exact .inr (.inl (by simp [State.fullReset]))
  case openHeat | closeHeat => exact .inr (.inl rfl)
  case standUp => exact .inr (.inr (.inr (.inl (standField_report s))))
  case closeExpiry => exact .inr (.inr (.inr (.inr (closeAttempt_report_atClose s))))
  case starterRecall => exact (starterRecall_report_cases s).imp_right fun h => .inr (.inl h)
  case gunAcceptance q _ =>
    unfold State.acceptGun
    rcases takeGun_cases (s.withGun _) q.edge with hg | hg | hg <;> rw [hg]
    · exact .inl (startAttempt_report _ _)
    · exact (starterRecall_report_cases _).imp_right fun h => .inr (.inl h)
    · exact .inl rfl
  all_goals exact .inl (by simp)

/-- The warning goes, or the heat stays and its warning is kept, made final, or what a close gives (R137, R158, R160). -/
theorem effect_warning {s u : State} (h : RecordEffect s u) :
    u.heat.warning = none ∨
      (u.heat.id = s.heat.id ∧
        (u.heat.warning = s.heat.warning ∨ u.heat.warning = s.heat.warning.map (fun w => { w with final := true }) ∨
          u.heat.warning = (atClose s).warningAfter)) := by
  cases h
  case softReset => exact .inl (by simp [Heat.cleared])
  case fullReset => exact .inl (by simp [State.fullReset, Heat.cleared])
  case openHeat | closeHeat | rescindFieldWarning => exact .inl rfl
  case callMarks => exact .inr ⟨rfl, .inr (.inl rfl)⟩
  case closeExpiry => exact .inr ⟨closeAttempt_id s, .inr (.inr (closeAttempt_warning_atClose s))⟩
  case starterRecall => exact .inr ⟨starterRecall_id s, .inl (starterRecall_warning s)⟩
  case gunAcceptance q _ =>
    unfold State.acceptGun
    rcases takeGun_cases (s.withGun _) q.edge with hg | hg | hg <;> rw [hg]
    · exact .inr ⟨by simp [State.startAttempt], .inl (by simp [State.startAttempt])⟩
    · exact .inr ⟨starterRecall_id _, .inl (starterRecall_warning _)⟩
    · exact .inr ⟨rfl, .inl rfl⟩
  case linkLost => exact .inr ⟨by simp [State.loseLink], .inl (by simp [State.loseLink])⟩
  case frameArrival => exact .inr ⟨by simp [State.deliver], .inl (by simp [State.deliver])⟩
  all_goals exact .inr ⟨by simp [State.passDeadline], .inl (by simp [State.passDeadline])⟩

/-! ### The report (R143) -/

/-- R143, for one report. -/
structure ReportLawful (r : Report) : Prop where
  outcome : r.outcome = .falseStart ↔ r.culprits ≠ []
  culpritProvoked : ∀ i ∈ r.culprits, i ∉ r.provoked
  culpritUnsure : ∀ i ∈ r.culprits, i ∉ r.unsure
  provokedUnsure : ∀ i ∈ r.provoked, i ∉ r.unsure
  ascending : r.culprits.Pairwise (· < ·) ∧ r.provoked.Pairwise (· < ·) ∧ r.unsure.Pairwise (· < ·) ∧
    r.movers.Pairwise (· < ·)

theorem reportLaw_iff (s : State) : s.ReportLaw ↔ ∀ r, s.report = some r → ReportLawful r :=
  ⟨fun h r hr => ⟨h.outcome r hr, h.culpritProvoked r hr, h.culpritUnsure r hr, h.provokedUnsure r hr, h.ascending r hr⟩,
    fun h => ⟨fun r hr => (h r hr).outcome, fun r hr => (h r hr).culpritProvoked, fun r hr => (h r hr).culpritUnsure,
      fun r hr => (h r hr).provokedUnsure, fun r hr => (h r hr).ascending⟩⟩

/-- The outcome of a close is FALSE exactly with culprits (R141). -/
theorem outcome_falseStart_iff (s : State) : s.outcome = .falseStart ↔ s.culprits ≠ [] := by
  unfold State.outcome outcomeOf
  by_cases hc : s.culprits = []
  · rw [if_pos (by simp [hc])]
    split <;> simp [hc]
  · rw [if_neg (by simp [hc])]
    simp [hc]

theorem class_of_culprit {s : State} {i : LaneNo} (h : i ∈ s.culprits) : ∃ rt, s.classOf i = some (.falseLane rt) := by
  obtain ⟨rt, _, hrt, _⟩ := (isCulprit_iff s i).1 ((mem_culprits s i).1 h)
  exact ⟨rt, falseRt_iff.1 hrt⟩

theorem not_mem_unsure_of_false {s : State} {i : LaneNo} (h : ∃ rt, s.classOf i = some (.falseLane rt)) :
    i ∉ s.unsureLanes := by
  obtain ⟨rt, hc⟩ := h
  simp [hc]

theorem unsureLanes_ascending (s : State) : s.unsureLanes.Pairwise (· < ·) := allLanes_filter_ascending _
theorem movers_ascending (s : State) : s.movers.Pairwise (· < ·) := allLanes_filter_ascending _

theorem closeReport_lawful (s : State) : ReportLawful s.closeReport where
  outcome := outcome_falseStart_iff s
  culpritProvoked := fun _ hc hp => (mem_provoked_iff.1 hp).2 hc
  culpritUnsure := fun _ hc => not_mem_unsure_of_false (class_of_culprit hc)
  provokedUnsure := fun _ hp => not_mem_unsure_of_false (mem_provoked_iff.1 hp).1
  ascending :=
    ⟨allLanes_filter_ascending _, allLanes_filter_ascending _, unsureLanes_ascending s, movers_ascending s⟩

theorem standUpReport_lawful (s : State) : ReportLawful s.standUpReport where
  outcome := by simp [State.standUpReport]
  culpritProvoked := fun _ hc => absurd hc List.not_mem_nil
  culpritUnsure := fun _ hc => absurd hc List.not_mem_nil
  provokedUnsure := fun _ hp => absurd hp List.not_mem_nil
  ascending := ⟨.nil, .nil, .nil, movers_ascending s⟩

/-- An amendment keeps every list and turns CLEAN, which has no culprits, into another outcome that has none (R147). -/
theorem amendReport_lawful {s : State} (h : ∀ r, s.report = some r → ReportLawful r) (r : Report)
    (hr : s.amendReport.report = some r) : ReportLawful r := by
  rw [amendReport_report, Option.map_eq_some_iff] at hr
  obtain ⟨q, hq, rfl⟩ := hr
  obtain ⟨ho, hcp, hcu, hpu, ha⟩ := h q hq
  split
  · next hclean => exact ⟨by simp [← ho, hclean], hcp, hcu, hpu, ha⟩
  · exact ⟨ho, hcp, hcu, hpu, ha⟩

theorem effect_keeps_reportLaw {s u : State} (hs : s.ReportLaw) (h : RecordEffect s u) : u.ReportLaw := by
  rw [reportLaw_iff] at hs ⊢
  intro r hr
  rcases effect_report h with hu | hu | hu | hu | hu <;> rw [hu] at hr
  · exact hs r hr
  · cases hr
  · exact amendReport_lawful hs r hr
  · cases hr
    exact standUpReport_lawful _
  · cases hr
    exact closeReport_lawful _

/-! ### The field warning (R139) -/

/-- A close creates a warning under FIELD policy only, with its culprits, of which there are some (R137). -/
theorem warningAfter_cases {s : State} {w : FieldWarning} (h : s.warningAfter = some w) :
    s.heat.warning = some w ∨
      (∃ d, s.heat.id = some d ∧ d.policy = .field) ∧ s.culprits ≠ [] ∧ w = ⟨s.heat.attempt, s.culprits, false⟩ := by
  unfold State.warningAfter at h
  split at h
  · next hw => exact .inl (hw.trans h)
  · split at h
    · next hc =>
      rw [Bool.and_eq_true, Option.any_eq_true] at hc
      obtain ⟨⟨d, hd, hp⟩, hn⟩ := hc
      exact .inr ⟨⟨d, hd, by simpa using hp⟩, by simpa using hn, (Option.some.inj h).symm⟩
    · cases h

theorem effect_keeps_warningLaw {s u : State} (hs : s.WarningLaw) (h : RecordEffect s u) : u.WarningLaw := by
  intro w hw
  rcases effect_warning h with hu | ⟨hid, hu | hu | hu⟩ <;> rw [hu] at hw
  · cases hw
  · rw [hid]
    exact hs w hw
  · obtain ⟨v, hv, rfl⟩ := Option.map_eq_some_iff.1 hw
    rw [hid]
    exact hs v hv
  · rw [hid]
    rcases warningAfter_cases hw with hk | ⟨hfield, hne, rfl⟩
    · exact hs w hk
    · exact ⟨hfield, hne, allLanes_filter_ascending _⟩

/-! ### Reaction times, for one entry and one lane (R117) -/

/-- R117, for one entry: the RT of its last result and those of its charge list. -/
structure EntryRtLawful (e : Entry) : Prop where
  result : ∀ r, e.result = some r → RtLawful r.kind.rt
  charges : ∀ c ∈ e.charges, RtLawful c.cause.rt

/-- R117, for one lane: its current RT and those of its entry. -/
structure LaneRtLawful (l : Lane) : Prop where
  current : RtLawful l.rt
  entry : ∀ e, l.entry = some e → EntryRtLawful e

theorem rtLaw_iff (s : State) :
    s.RtLaw ↔ (∀ i : LaneNo, LaneRtLawful s.lanes[i]) ∧ ∀ r, s.report = some r → RtLawful r.earliest :=
  ⟨fun h => ⟨fun i => ⟨h.current i, fun e he => ⟨fun r hr => h.results i e r he hr, h.charges i e he⟩⟩, h.report⟩,
    fun ⟨hl, hr⟩ => ⟨fun i => (hl i).current, fun i e r he => ((hl i).entry e he).result r,
      fun i e he => ((hl i).entry e he).charges, hr⟩⟩

section Entry

variable {e : Entry}

theorem charge_rtLawful {n : Nat} {x : Effect} {c : ChargeCause} (he : EntryRtLawful e) (hc : RtLawful c.rt) :
    EntryRtLawful (e.charge n x c) where
  result := he.result
  charges := by
    intro k hk
    rw [charge_charges, List.mem_append, List.mem_singleton] at hk
    rcases hk with hk | rfl
    · exact he.charges k hk
    · exact hc

theorem rescind_rtLawful (he : EntryRtLawful e) : EntryRtLawful e.rescind :=
  ⟨he.result, fun c hc => he.charges c (List.mem_of_mem_dropLast hc)⟩

theorem finalize_rtLawful (he : EntryRtLawful e) : EntryRtLawful e.finalize where
  result := he.result
  charges := by
    intro k hk
    rw [finalize_charges, List.mem_map] at hk
    obtain ⟨c, hc, rfl⟩ := hk
    exact he.charges c hc

theorem withResult_rtLawful {k : ResultKind} {p : Bool} (he : EntryRtLawful e) (hk : RtLawful k.rt) :
    EntryRtLawful { e with result := some ⟨k, p⟩ } :=
  ⟨fun _ hr => Option.some.inj hr ▸ hk, he.charges⟩

theorem senseCharge_rtLawful {p : Policy} {w : Bool} {n : Nat} {rt : Int} (he : EntryRtLawful e) (hr : rtInRange rt) :
    EntryRtLawful (e.senseCharge p w n rt) := by
  rcases senseCharge_cases e p w n rt with h | ⟨x, _, h⟩ <;> rw [h]
  · exact he
  · exact charge_rtLawful he (rtLawful_some hr)

end Entry

section Lane

variable {l m : Lane}

theorem laneRt_of_absent (hr : l.rt = none) (he : l.entry = none) : LaneRtLawful l :=
  ⟨hr ▸ rtLawful_none, fun e h => by rw [he] at h; cases h⟩

/-- A change of a lane that keeps its entry and its RT in range. -/
theorem laneRt_of_entry (hl : LaneRtLawful l) (he : m.entry = l.entry) (hr : RtLawful m.rt) : LaneRtLawful m :=
  ⟨hr, he ▸ hl.entry⟩

theorem laneRt_congr (hl : LaneRtLawful l) (he : m.entry = l.entry) (hr : m.rt = l.rt) : LaneRtLawful m :=
  laneRt_of_entry hl he (hr ▸ hl.current)

theorem laneRt_changeEntry {f : Entry → Entry} (hl : LaneRtLawful l) (hf : ∀ e, EntryRtLawful e → EntryRtLawful (f e)) :
    LaneRtLawful (l.changeEntry f) where
  current := hl.current
  entry := by
    intro e he
    obtain ⟨d, hd, rfl⟩ := Option.map_eq_some_iff.1 he
    exact hf d (hl.entry d hd)

theorem laneRt_enter {b : Nat} : LaneRtLawful (l.enter b) where
  current := rtLawful_none
  entry := by
    intro e he
    cases he
    exact ⟨nofun, nofun⟩

theorem laneRt_withdraw (hl : LaneRtLawful l) : LaneRtLawful l.withdraw := by
  have hentry : LaneRtLawful (l.changeEntry fun e => { e with standing := .withdrawn }) :=
    laneRt_changeEntry hl fun e he => ⟨he.result, he.charges⟩
  exact laneRt_congr hentry rfl rfl

theorem laneRt_sampleDelivery {s : State} {k : LinkId} {f : FrameInProgress} {w : Vector (BitVec 40) 6} {i : LaneNo}
    (hl : LaneRtLawful l) : LaneRtLawful (sampleDelivery s k f w i l).1 := by
  refine laneRt_of_entry hl (sampleDelivery_entry ..) ?_
  unfold sampleDelivery
  split
  · exact hl.current
  · exact rtLawful_takeSample hl.current

theorem laneRt_lossIndication {c : Settings} {h : HeatState} {k : LinkId} {i : LaneNo} (hl : LaneRtLawful l) :
    LaneRtLawful (lossIndication c h k i l).1 := by
  refine laneRt_congr hl (lossIndication_entry ..) ?_
  unfold lossIndication
  split
  · exact linkLost_rt l h
  · rfl

theorem laneRt_gunIndication {c : Settings} {g : Stamp} {i : LaneNo} (hl : LaneRtLawful l) :
    LaneRtLawful (gunIndication c g i l).1 :=
  laneRt_of_entry hl (gunIndication_entry ..) (rtLawful_gunIndication hl.current)

end Lane

/-! ### Reaction times, at the judgement (R131, R132, R133) -/

/-- The RT of a lane's class is its current RT. -/
theorem classify_rt {c : Settings} {l : Lane} {rt : Int} (h : l.classify c = .clean rt ∨ l.classify c = .falseLane rt) :
    l.rt = some rt := by
  unfold Lane.classify at h
  split at h
  · next x _ hx =>
    rw [hx]
    split at h <;> simpa using h
  · next x _ hx =>
    rw [hx]
    simpa using h
  · simp at h
  · simp at h

/-- The RT of a lane's result is its current RT. -/
theorem resultKind_rt {s : State} {i : LaneNo} {k : LaneClass} {rt : Int} (hk : s.classOf i = some k)
    (h : (s.resultKind i k).rt = some rt) : s.lanes[i].rt = some rt := by
  have he : s.lanes[i].eligible = true := by rw [← classOf_isSome, hk]; rfl
  obtain rfl : s.lanes[i].classify s.settings = k := Option.some.inj ((classOf_eligible he).symm.trans hk)
  refine classify_rt (c := s.settings) ?_
  generalize s.lanes[i].classify s.settings = k at h ⊢
  cases k with
  | clean x => simpa [State.resultKind, ResultKind.rt] using h
  | noReaction => cases h
  | falseLane x =>
    unfold State.resultKind at h
    dsimp only at h
    split at h <;> simpa [ResultKind.rt] using h
  | unsure => cases h

theorem resultKind_rtLawful {s : State} {i : LaneNo} {k : LaneClass} (hk : s.classOf i = some k)
    (hr : RtLawful s.lanes[i].rt) : RtLawful (s.resultKind i k).rt :=
  fun rt h => hr rt (resultKind_rt hk h)

theorem falseRt_rtLawful {s : State} {i : LaneNo} (hr : RtLawful s.lanes[i].rt) : RtLawful (s.falseRt i) :=
  fun rt h => hr rt (falseRt_current h)

theorem laneRt_judgeLane {s : State} {i : LaneNo} (hl : LaneRtLawful s.lanes[i]) :
    LaneRtLawful (s.judgeLane i s.lanes[i]) := by
  rcases judgeLane_entry s i s.lanes[i] with h | ⟨k, hk, h | ⟨d, rt, _, hrt, _, h⟩⟩ <;> rw [h]
  · exact hl
  · exact laneRt_changeEntry hl fun e he => withResult_rtLawful he (resultKind_rtLawful hk hl.current)
  · have hfalse : s.falseRt i = some rt := by rw [State.falseRt, hk]; exact hrt
    exact laneRt_changeEntry hl fun e he =>
      senseCharge_rtLawful (withResult_rtLawful he (resultKind_rtLawful hk hl.current))
        (falseRt_rtLawful hl.current rt hfalse)

theorem earliestFalse_rtLawful {s : State} (h : ∀ i : LaneNo, RtLawful s.lanes[i].rt) : RtLawful s.earliestFalse := by
  intro rt hrt
  obtain ⟨⟨i, hi⟩, _⟩ := (earliestFalse_iff s rt).1 hrt
  exact falseRt_rtLawful (h i) rt hi

/-! ### Reaction times, at every effect -/

theorem laneRt_changeLane {s : State} {i j : LaneNo} {f : Lane → Lane} (hl : LaneRtLawful s.lanes[j])
    (hf : LaneRtLawful (f s.lanes[j])) : LaneRtLawful (s.changeLane i f).lanes[j] := by
  rw [changeLane_lane]
  split
  · exact hf
  · exact hl

theorem laneRt_acceptGun {s : State} {q : Qualification} {i : LaneNo} (hl : LaneRtLawful s.lanes[i]) :
    LaneRtLawful (s.acceptGun q).lanes[i] := by
  unfold State.acceptGun
  rcases takeGun_cases (s.withGun _) q.edge with hg | hg | hg <;> rw [hg]
  · rw [Fin.getElem_fin, startAttempt_getElem]
    exact laneRt_gunIndication hl
  · rw [starterRecall_lanes]
    exact hl
  · exact hl

theorem effect_keeps_laneRt {s u : State} (h : RecordEffect s u) (i : LaneNo) (hl : LaneRtLawful s.lanes[i]) :
    LaneRtLawful u.lanes[i] := by
  cases h
  case softReset =>
    exact laneRt_of_absent (by simp [Lane.cleared]) (by simp [Lane.cleared])
  case fullReset =>
    exact laneRt_of_absent (by simp [State.fullReset, Lane.cleared]) (by simp [State.fullReset, Lane.cleared])
  case writeSetting | loadProfile =>
    exact laneRt_congr hl (by simp) (by simp)
  case closeHeat =>
    exact laneRt_of_absent (by simp [State.retire, Lane.vacate]) (by simp [State.retire])
  case enterLane j b _ _ _ _ _ =>
    have hlane : LaneRtLawful (s.changeLane j (Lane.enter b)).lanes[i] := laneRt_changeLane hl laneRt_enter
    exact hlane
  case vacateLane j _ =>
    have hlane : LaneRtLawful (s.changeLane j Lane.vacate).lanes[i] := laneRt_changeLane hl (laneRt_of_absent rfl rfl)
    exact hlane
  case withdrawLane => exact laneRt_changeLane hl (laneRt_withdraw hl)
  case callMarks =>
    rw [Fin.getElem_fin, beginAttempt_getElem]
    exact laneRt_changeEntry (laneRt_of_entry hl rfl rtLawful_none) fun e => finalize_rtLawful
  case callSet =>
    rw [Fin.getElem_fin, setField_getElem]
    split
    · exact laneRt_congr hl rfl rfl
    · exact hl
  case standUp =>
    rw [Fin.getElem_fin, standField_getElem]
    split
    · exact laneRt_changeEntry (laneRt_congr hl rfl rfl) fun e he => withResult_rtLawful he rtLawful_none
    · exact hl
  case starterRecall => simpa using hl
  case imposeCharge => exact laneRt_changeLane hl (laneRt_changeEntry hl fun e he => charge_rtLawful he rtLawful_none)
  case rescindCharge => exact laneRt_changeLane hl (laneRt_changeEntry hl fun e => rescind_rtLawful)
  case gunAcceptance => exact laneRt_acceptGun hl
  case closeExpiry =>
    rw [closeAttempt_lanes_atClose, Fin.getElem_fin, judge_getElem]
    exact laneRt_judgeLane (laneRt_congr hl (atClose_entry s i) (atClose_rt s i))
  case linkLost =>
    rw [Fin.getElem_fin, loseLink_getElem]
    exact laneRt_lossIndication hl
  case frameArrival =>
    rw [Fin.getElem_fin, deliver_getElem]
    exact laneRt_sampleDelivery hl
  all_goals simpa using hl

/-- The earliest false RT of the report that an effect leaves: an amendment keeps it, a stand-up writes none (R142, R146,
R147). -/
theorem effect_keeps_reportRt {s u : State} (h : RecordEffect s u) (hl : ∀ i : LaneNo, RtLawful s.lanes[i].rt)
    (hs : ∀ r, s.report = some r → RtLawful r.earliest) (r : Report) (hr : u.report = some r) : RtLawful r.earliest := by
  rcases effect_report h with hu | hu | hu | hu | hu <;> rw [hu] at hr
  · exact hs r hr
  · cases hr
  · rw [amendReport_report, Option.map_eq_some_iff] at hr
    obtain ⟨q, hq, rfl⟩ := hr
    split <;> exact hs q hq
  · cases hr
    exact rtLawful_none
  · cases hr
    exact earliestFalse_rtLawful fun i => atClose_rt s i ▸ hl i

theorem effect_keeps_rtLaw {s u : State} (hs : s.RtLaw) (h : RecordEffect s u) : u.RtLaw := by
  rw [rtLaw_iff] at hs ⊢
  obtain ⟨hlanes, hreport⟩ := hs
  exact ⟨fun i => effect_keeps_laneRt h i (hlanes i), effect_keeps_reportRt h (fun i => (hlanes i).current) hreport⟩

/-! ### Every step -/

theorem step_keeps_reportLaw {s t : State} (h : step s = .next t) (hs : s.ReportLaw) : t.ReportLaw :=
  step_keeps_law (fun u _ ⟨_, _, _, _, _, _, _, _, _, ht⟩ hu => ht ▸ (reportLaw_iff _).2 ((reportLaw_iff u).1 hu))
    (fun s _ hs => (reportLaw_iff _).2 ((reportLaw_iff s).1 hs)) (fun _ _ => effect_keeps_reportLaw) hs h

theorem step_keeps_warningLaw {s t : State} (h : step s = .next t) (hs : s.WarningLaw) : t.WarningLaw :=
  step_keeps_law (fun _ _ ⟨_, _, _, _, _, _, _, _, _, ht⟩ hu => ht ▸ hu) (fun _ _ hs => hs)
    (fun _ _ => effect_keeps_warningLaw) hs h

theorem step_keeps_rtLaw {s t : State} (h : step s = .next t) (hs : s.RtLaw) : t.RtLaw :=
  step_keeps_law (fun u _ ⟨_, _, _, _, _, _, _, _, _, ht⟩ hu => ht ▸ (rtLaw_iff _).2 ((rtLaw_iff u).1 hu))
    (fun s _ hs => (rtLaw_iff _).2 ((rtLaw_iff s).1 hs)) (fun _ _ => effect_keeps_rtLaw) hs h

/-- Settles O55: every effect on the records keeps each of the three laws, and a step is an effect, up to what they do not
read. -/
theorem judgementLawsKept : Obligations.JudgementLawsKept := by
  unfold Obligations.JudgementLawsKept
  exact fun _ _ h => ⟨step_keeps_reportLaw h, step_keeps_warningLaw h, step_keeps_rtLaw h⟩

end Sys2Proof.Proofs
end

section
/-! PROOFS. The amendment commands (R150, R152, R153, R155, R156, R158): what a charge and a rescission make of an entry and
leave of the state, what each owner answers at each of its tests, and the statements O37 and O38 assembled from these. -/

namespace Sys2Proof.Proofs

open Sys2Proof.Machine Sys2Proof.Laws

/-! ### The review states (R150) and the effect argument (R152) -/

theorem reviewState_iff (h : HeatState) : reviewState h = true ↔ h = .running ∨ h = .done ∨ h = .review := by
  simp [reviewState, or_assoc]

theorem reviewState_eq_false {h : HeatState} (hr : h ≠ .running) (hd : h ≠ .done) (hv : h ≠ .review) :
    reviewState h = false := by
  simp [reviewState, hr, hd, hv]

theorem parseEffect_some {b : Byte} {x : Effect} (h : b = if x = .caution then 0 else 1) : parseEffect b = some x := by
  subst h
  cases x <;> rfl

theorem parseEffect_none {b : Byte} (h : 1 < b.toNat) : parseEffect b = none := by
  have hzero : b ≠ 0 := by rintro rfl; contradiction
  have hone : b ≠ 1 := by rintro rfl; contradiction
  unfold parseEffect
  rw [if_neg hzero, if_neg hone]

/-! ### A change of one lane's entry -/

section ChangeEntry

variable {s : State} {i : LaneNo} {e g : Entry} {f : Entry → Entry}

theorem changeEntry_of_entry {l : Lane} (h : l.entry = some e) : l.changeEntry f = { l with entry := some (f e) } := by
  simp [Lane.changeEntry, h]

/-- A change of an entered lane's entry gives the lane the new entry, and nothing else changes. -/
theorem changeLane_changeEntry_only (he : s.lanes[i].entry = some e) (hg : f e = g) :
    (s.changeLane i (Lane.changeEntry f)).lanes[i] = { s.lanes[i] with entry := some g } ∧
      (∀ j : LaneNo, j ≠ i → (s.changeLane i (Lane.changeEntry f)).lanes[j] = s.lanes[j]) ∧
      { s.changeLane i (Lane.changeEntry f) with lanes := s.lanes } = s := by
  refine ⟨?_, fun j hj => ?_, rfl⟩
  · rw [changeLane_lane, if_pos rfl, changeEntry_of_entry he, hg]
  · rw [changeLane_lane, if_neg hj]

end ChangeEntry

/-! ### What a charge makes of an entry (R153) -/

section Charge

variable (e : Entry)

theorem charge_eq (n : Nat) (x : Effect) (c : ChargeCause) :
    e.charge n x c = { e with
      charges := e.charges ++ [⟨n, x, c, false⟩]
      standing := if x = .caution then .cautioned else .disqualified } := by
  cases x <;> rfl

theorem holds_iff (x : Effect) : e.holds x = true ↔ ∃ c ∈ e.charges, c.effect = x := by
  simp [Entry.holds]

theorem holds_eq_false_iff (x : Effect) : e.holds x = false ↔ ∀ c ∈ e.charges, c.effect ≠ x := by
  simp [Entry.holds]

end Charge

/-! ### What a rescission makes of an entry (R156) -/

section Rescind

variable {e : Entry} {older : List Charge} {newest : Charge}

/-- The lists that some standing allows (R8). -/
theorem effects_of_lawful (hl : e.lawful) :
    e.charges.map Charge.effect = [] ∨ e.charges.map Charge.effect = [.caution] ∨
      e.charges.map Charge.effect = [.disqualify] ∨ e.charges.map Charge.effect = [.caution, .disqualify] := by
  unfold Entry.lawful at hl
  split at hl
  case h_1 => exact .inl hl
  case h_2 => exact .inr (.inl hl)
  case h_3 => exact .inr (.inr hl)
  case h_4 => exact hl.imp_right .inl

/-- In a lawful list the entries before the newest one are none, or a caution alone. -/
theorem older_of_lawful (hl : e.lawful) (h : e.charges = older ++ [newest]) :
    older = [] ∨ ∃ c, older = [c] ∧ c.effect = .caution := by
  have hdrop : older.map Charge.effect = (e.charges.map Charge.effect).dropLast := by simp [h]
  rcases effects_of_lawful hl with he | he | he | he <;> rw [he] at hdrop
  case inr.inr.inr => exact .inr (List.map_eq_singleton_iff.1 hdrop)
  all_goals exact .inl (List.map_eq_nil_iff.1 hdrop)

theorem rescind_eq (hl : e.lawful) (h : e.charges = older ++ [newest]) :
    e.rescind = { e with
      charges := older
      standing := if e.standing = .withdrawn then .withdrawn else if older = [] then .eligible else .cautioned } := by
  have hdrop : e.charges.dropLast = older := by rw [h, List.dropLast_concat]
  unfold Entry.rescind
  rw [hdrop]
  rcases older_of_lawful hl h with rfl | ⟨c, rfl, hc⟩
  · rfl
  · simp [hc]

end Rescind

/-! ### What the owner of IMPOSE CHARGE answers, test by test (R152) -/

section Impose

variable {lane effect : Byte} {s : State} {i : LaneNo} {x : Effect} {e : Entry}

theorem ownImposeCharge_outside (hh : reviewState s.heat.state = false) :
    ownImposeCharge lane effect s = s.refuse .wrongState := by
  unfold ownImposeCharge
  rw [if_pos hh]

/-- An argument out of range is refused whatever the other one is. -/
theorem ownImposeCharge_badOperand (hh : reviewState s.heat.state = true)
    (hp : parseLane lane = none ∨ parseEffect effect = none) : ownImposeCharge lane effect s = s.refuse .badArgument := by
  unfold ownImposeCharge
  rw [if_neg (by simp [hh])]
  split
  · next i x hi hx => simp [hi, hx] at hp
  · rfl

variable (hh : reviewState s.heat.state = true) (hi : parseLane lane = some i) (hx : parseEffect effect = some x)
include hh hi hx

theorem ownImposeCharge_vacant (hv : s.lanes[i].entry = none) : ownImposeCharge lane effect s = s.refuse .notFound := by
  unfold ownImposeCharge
  rw [if_neg (by simp [hh])]
  simp only [hi, hx, hv]

variable (he : s.lanes[i].entry = some e)
include he

/-- In a review state, with both arguments in range and the lane entered, the tests of the standing and of the list remain. -/
theorem ownImposeCharge_entered :
    ownImposeCharge lane effect s =
      if e.standing = .withdrawn ∨ e.standing = .disqualified then s.refuse .wrongState
      else if x = .caution ∧ e.holds .caution then s.refuse .duplicate
      else (s.changeLane i (Lane.changeEntry (Entry.charge s.heat.attempt x .referee))).succeed := by
  unfold ownImposeCharge
  rw [if_neg (by simp [hh])]
  simp only [hi, hx, he]

theorem ownImposeCharge_barred (hs : e.standing = .withdrawn ∨ e.standing = .disqualified) :
    ownImposeCharge lane effect s = s.refuse .wrongState := by
  rw [ownImposeCharge_entered hh hi hx he, if_pos hs]

variable (hs : e.standing = .eligible ∨ e.standing = .cautioned)
include hs

theorem ownImposeCharge_duplicate (hc : x = .caution) (hd : ∃ c ∈ e.charges, c.effect = .caution) :
    ownImposeCharge lane effect s = s.refuse .duplicate := by
  rw [ownImposeCharge_entered hh hi hx he, if_neg (by rcases hs with h | h <;> simp [h]),
    if_pos ⟨hc, (holds_iff e _).2 hd⟩]

theorem ownImposeCharge_charges (hn : x = .disqualify ∨ ∀ c ∈ e.charges, c.effect ≠ .caution) :
    ownImposeCharge lane effect s =
      (s.changeLane i (Lane.changeEntry (Entry.charge s.heat.attempt x .referee))).succeed := by
  have hnew : ¬ (x = .caution ∧ e.holds .caution = true) := by
    rintro ⟨rfl, hd⟩
    rcases hn with h | h
    · cases h
    · exact Bool.eq_false_iff.1 ((holds_eq_false_iff e _).2 h) hd
  rw [ownImposeCharge_entered hh hi hx he, if_neg (by rcases hs with h | h <;> simp [h]), if_neg hnew]

end Impose

/-! ### What the owner of RESCIND CHARGE answers, test by test (R155) -/

section RescindOwner

variable {lane : Byte} {s : State} {i : LaneNo} {e : Entry} {older : List Charge} {newest : Charge}

theorem ownRescindCharge_outside (hh : reviewState s.heat.state = false) :
    ownRescindCharge lane s = s.refuse .wrongState := by
  unfold ownRescindCharge
  rw [if_pos hh]

variable (hh : reviewState s.heat.state = true)
include hh

theorem ownRescindCharge_badLane (hi : parseLane lane = none) : ownRescindCharge lane s = s.refuse .badArgument := by
  unfold ownRescindCharge
  rw [if_neg (by simp [hh]), hi]

variable (hi : parseLane lane = some i)
include hi

/-- A lane that is vacant, or whose list is empty, holds nothing to rescind. -/
theorem ownRescindCharge_nothing (hn : s.lanes[i].entry = none ∨ ∃ e, s.lanes[i].entry = some e ∧ e.charges = []) :
    ownRescindCharge lane s = s.refuse .notFound := by
  unfold ownRescindCharge
  rw [if_neg (by simp [hh])]
  rcases hn with hv | ⟨e, he, hc⟩
  · simp only [hi, hv]
  · simp only [hi, he, hc, List.getLast?_nil]

variable (he : s.lanes[i].entry = some e) (hc : e.charges = older ++ [newest])
include he hc

/-- In a review state, with a charge in the lane's list, the test of finality remains. -/
theorem ownRescindCharge_charged :
    ownRescindCharge lane s =
      if newest.final then s.refuse .final else (s.changeLane i (Lane.changeEntry Entry.rescind)).succeed := by
  unfold ownRescindCharge
  rw [if_neg (by simp [hh])]
  simp only [hi, he, hc, List.getLast?_concat]

theorem ownRescindCharge_final (hf : newest.final = true) : ownRescindCharge lane s = s.refuse .final := by
  rw [ownRescindCharge_charged hh hi he hc, if_pos hf]

theorem ownRescindCharge_rescinds (hf : newest.final = false) :
    ownRescindCharge lane s = (s.changeLane i (Lane.changeEntry Entry.rescind)).succeed := by
  rw [ownRescindCharge_charged hh hi he hc, if_neg (by simp [hf])]

end RescindOwner

/-! ### What the owner of RESCIND FIELD WARNING answers, test by test (R158) -/

section WarningOwner

variable {s : State} {w : FieldWarning}

theorem ownRescindFieldWarning_outside (hh : reviewState s.heat.state = false) :
    ownRescindFieldWarning s = s.refuse .wrongState := by
  unfold ownRescindFieldWarning
  rw [if_pos hh]

variable (hh : reviewState s.heat.state = true)
include hh

theorem ownRescindFieldWarning_absent (hw : s.heat.warning = none) : ownRescindFieldWarning s = s.refuse .notFound := by
  unfold ownRescindFieldWarning
  rw [if_neg (by simp [hh]), hw]

/-- In a review state, with a warning present, the test of finality remains. -/
theorem ownRescindFieldWarning_present (hw : s.heat.warning = some w) :
    ownRescindFieldWarning s =
      if w.final then s.refuse .final else (s.withHeat { s.heat with warning := none }).succeed := by
  unfold ownRescindFieldWarning
  rw [if_neg (by simp [hh])]
  simp only [hw]

theorem ownRescindFieldWarning_final (hw : s.heat.warning = some w) (hf : w.final = true) :
    ownRescindFieldWarning s = s.refuse .final := by
  rw [ownRescindFieldWarning_present hh hw, if_pos hf]

theorem ownRescindFieldWarning_rescinds (hw : s.heat.warning = some w) (hf : w.final = false) :
    ownRescindFieldWarning s = (s.withHeat { s.heat with warning := none }).succeed := by
  rw [ownRescindFieldWarning_present hh hw, if_neg (by simp [hf])]

end WarningOwner

/-! ### The commands, collected, are answered with what their owners give (R176) -/

section Collected

variable {s : State} {o : Owned} (hc : s.collecting = true)
include hc

theorem exec_imposeCharge_of_own {lane effect : Byte} (ho : ownImposeCharge lane effect s = o) :
    exec (.imposeCharge lane effect) s = .next (State.answered 0x50 2 o) :=
  (exec_imposeCharge lane effect s).trans (receive_eq hc rfl rfl ho)

theorem exec_rescindCharge_of_own {lane : Byte} (ho : ownRescindCharge lane s = o) :
    exec (.rescindCharge lane) s = .next (State.answered 0x51 1 o) :=
  (exec_rescindCharge lane s).trans (receive_eq hc rfl rfl ho)

theorem exec_rescindFieldWarning_of_own (ho : ownRescindFieldWarning s = o) :
    exec .rescindFieldWarning s = .next (State.answered 0x52 0 o) :=
  (exec_rescindFieldWarning s).trans (receive_eq hc rfl rfl ho)

end Collected

/-- Settles O37: each test of R152 by the owner's answer at it, and the effect of R153 by what a charge makes of the entry. -/
theorem imposeCharge : Obligations.ImposeCharge := by
  unfold Obligations.ImposeCharge
  intro lane effect s hc
  refine ⟨fun hr hd hv => ?_, fun hstate => ?_⟩
  · exact exec_imposeCharge_of_own hc (ownImposeCharge_outside (reviewState_eq_false hr hd hv))
  · have hh := (reviewState_iff _).2 hstate
    refine ⟨fun hbad => exec_imposeCharge_of_own hc (ownImposeCharge_badOperand hh ?_), fun i x hlane heffect => ?_⟩
    · rcases hbad with h | h | h
      · exact .inl (parseLane_none (.inl h))
      · exact .inl (parseLane_none (.inr h))
      · exact .inr (parseEffect_none h)
    · have hi : parseLane lane = some i := parseLane_some hlane
      have hx : parseEffect effect = some x := parseEffect_some heffect
      refine ⟨fun hv => exec_imposeCharge_of_own hc (ownImposeCharge_vacant hh hi hx hv), fun e he => ⟨fun hs => ?_,
        fun hs => ⟨fun hcaution hd => ?_, fun hn => ?_⟩⟩⟩
      · exact exec_imposeCharge_of_own hc (ownImposeCharge_barred hh hi hx he hs)
      · exact exec_imposeCharge_of_own hc (ownImposeCharge_duplicate hh hi hx he hs hcaution hd)
      · exact ⟨_, exec_imposeCharge_of_own hc (ownImposeCharge_charges hh hi hx he hs hn),
          changeLane_changeEntry_only he (charge_eq e s.heat.attempt x .referee)⟩


/-- Settles O38: each test of R155 and R158 by its owner's answer at it; the effect of R156 by what a rescission makes of an
entry whose list keeps the law of R8. -/
theorem rescindCommands : Obligations.RescindCommands := by
  unfold Obligations.RescindCommands
  refine ⟨fun lane s hc hl => ⟨fun hr hd hv => ?_, fun hstate => ?_⟩, fun s hc => ⟨fun hr hd hv => ?_, fun hstate => ?_⟩⟩
  · exact exec_rescindCharge_of_own hc (ownRescindCharge_outside (reviewState_eq_false hr hd hv))
  · have hh := (reviewState_iff _).2 hstate
    refine ⟨fun hbad => exec_rescindCharge_of_own hc (ownRescindCharge_badLane hh (parseLane_none hbad)),
      fun i hlane => ?_⟩
    have hi : parseLane lane = some i := parseLane_some hlane
    refine ⟨fun hn => exec_rescindCharge_of_own hc (ownRescindCharge_nothing hh hi hn),
      fun e older newest he hlist => ⟨fun hf => ?_, fun hf => ?_⟩⟩
    · exact exec_rescindCharge_of_own hc (ownRescindCharge_final hh hi he hlist hf)
    · exact ⟨_, exec_rescindCharge_of_own hc (ownRescindCharge_rescinds hh hi he hlist hf),
        changeLane_changeEntry_only he (rescind_eq (hl i e he) hlist)⟩
  · exact exec_rescindFieldWarning_of_own hc (ownRescindFieldWarning_outside (reviewState_eq_false hr hd hv))
  · have hh := (reviewState_iff _).2 hstate
    exact ⟨fun hw => exec_rescindFieldWarning_of_own hc (ownRescindFieldWarning_absent hh hw),
      fun w hw hf => exec_rescindFieldWarning_of_own hc (ownRescindFieldWarning_final hh hw hf),
      fun w hw hf => exec_rescindFieldWarning_of_own hc (ownRescindFieldWarning_rescinds hh hw hf)⟩

end Sys2Proof.Proofs
end

section
/-! PROOFS. The notice commands (R163 to R170): how a source argument parses, when a source is pending, which source wins, what
each owner answers and changes, and the statements O15 and O16 assembled from these. -/

namespace Sys2Proof.Proofs

open Sys2Proof.Machine Sys2Proof.Laws

/-! ### The sources and their order numbers (R163, Table 9-1) -/

theorem allSources_getElem?_index (x : NoticeSource) : allSources[x.index.val]? = some x := by
  cases x <;> rfl

theorem mem_allSources (x : NoticeSource) : x ∈ allSources :=
  List.mem_of_getElem? (allSources_getElem?_index x)

/-- Different sources have different order numbers. -/
theorem index_inj {x y : NoticeSource} : x.index = y.index ↔ x = y := by
  refine ⟨fun h => ?_, congrArg _⟩
  have hx := allSources_getElem?_index x
  rw [h, allSources_getElem?_index y] at hx
  exact (Option.some.inj hx).symm

theorem parseSource_some {b : Byte} {x : NoticeSource} (h : b.toNat = x.index.val + 1) : parseSource b = some x := by
  unfold parseSource
  rw [if_pos (by omega), h, Nat.add_sub_cancel, allSources_getElem?_index]

theorem parseSource_none {b : Byte} (h : b.toNat = 0 ∨ 14 < b.toNat) : parseSource b = none := by
  unfold parseSource
  split
  · next hone =>
    have hlength : allSources.length = 14 := rfl
    exact List.getElem?_eq_none (by omega)
  · rfl

/-! ### Level and ceiling arguments (R168, R170) -/

theorem clampLevel_of_eq {b : Byte} {c : Fin 8} (h : b.toNat = c.val) : clampLevel b = c :=
  Fin.ext (by simp only [clampLevel]; omega)

theorem clampLevel_of_gt {b : Byte} (h : 7 < b.toNat) : clampLevel b = 7 :=
  Fin.ext (by simp only [clampLevel]; omega)

theorem levelResult_of_le {b : Byte} (h : b.toNat ≤ 7) : levelResult b = .done := if_pos h

theorem levelResult_of_gt {b : Byte} (h : 7 < b.toNat) : levelResult b = .clamped := if_neg (by omega)

/-! ### When a source is pending (R164, R165) -/

section Pending

variable {s t : State} {x y : NoticeSource}

/-- What is pending is read from the links and the event flags alone. -/
theorem noticePending_congr (ha : t.linkA = s.linkA) (hb : t.linkB = s.linkB) (he : t.notices.events = s.notices.events) :
    t.noticePending x = s.noticePending x := by
  unfold State.noticePending
  rw [ha, hb, he]

/-- An event source is pending exactly while its flag is set (R164). -/
theorem noticePending_event (ha : x ≠ .linkADown) (hb : x ≠ .linkBDown) :
    s.noticePending x = s.notices.events[x.index] := by
  cases x
  case linkADown => exact absurd rfl ha
  case linkBDown => exact absurd rfl hb
  all_goals rfl

/-- A clear takes its own source away when that is an event source; a condition source stays as its link has it (R165). -/
theorem clearEvent_noticePending : (s.clearEvent x).noticePending y = true ↔
    s.noticePending y = true ∧ (y = x → x = .linkADown ∨ x = .linkBDown) := by
  by_cases ha : y = .linkADown
  · subst ha
    exact ⟨fun h => ⟨h, fun hx => .inl hx.symm⟩, And.left⟩
  by_cases hb : y = .linkBDown
  · subst hb
    exact ⟨fun h => ⟨h, fun hx => .inr hx.symm⟩, And.left⟩
  · rw [noticePending_event ha hb, noticePending_event ha hb, clearEvent_event]
    refine and_congr_right fun _ => ⟨fun hne heq => absurd heq hne, fun himp heq => ?_⟩
    subst heq
    exact (himp rfl).elim ha hb

theorem qualifies_iff : s.qualifies x = true ↔ s.noticePending x = true ∧ s.noticeLevel x < s.notices.ceiling := by
  simp [State.qualifies]

end Pending

/-! ### Nothing else -/

section Frame

variable (s : State)

theorem withNotices_rest (n : Notices) : { s.withNotices n with notices := s.notices } = s := rfl

theorem clearEvent_rest (x : NoticeSource) : { s.clearEvent x with notices := s.notices } = s := withNotices_rest s _

theorem setLevel_rest (x : NoticeSource) (v : Fin 8) : { s.setLevel x v with notices := s.notices } = s :=
  withNotices_rest s _

end Frame

/-! ### The winner (R166) -/

section Winner

variable {s : State} {x : NoticeSource}

/-- The winner is found at its own level: it qualifies, and no lower level has a qualifying source. -/
theorem winner_eq_some (h : s.winner = some x) :
    s.qualifies x = true ∧ ∀ y, s.qualifies y = true → s.noticeLevel x ≤ s.noticeLevel y := by
  obtain ⟨lower, v, higher, hlevels, hfound, hnone⟩ := List.findSome?_eq_some_iff.1 h
  have hx := List.find?_some hfound
  simp only [Bool.and_eq_true, beq_iff_eq] at hx
  obtain ⟨hqualifies, hlevel⟩ := hx
  refine ⟨hqualifies, fun y hy => ?_⟩
  have hnotlower : s.noticeLevel y ∉ lower := fun hmem => by
    have := List.find?_eq_none.1 (hnone _ hmem) y (mem_allSources y)
    simp [hy] at this
  have hsorted : (lower ++ v :: higher).Pairwise (· < ·) := hlevels ▸ (List.sortedLT_finRange 8).pairwise
  obtain ⟨_, hfrom, _⟩ := List.pairwise_append.1 hsorted
  obtain ⟨hhigher, _⟩ := List.pairwise_cons.1 hfrom
  have hmem : s.noticeLevel y ∈ lower ++ v :: higher := hlevels ▸ List.mem_finRange _
  rw [hlevel]
  rcases List.mem_append.1 hmem with hl | hv
  · exact absurd hl hnotlower
  · exact (List.mem_cons.1 hv).elim Eq.ge fun hh => (hhigher _ hh).le

theorem winner_eq_none (h : ∀ y, s.qualifies y ≠ true) : s.winner = none := by
  refine List.findSome?_eq_none_iff.2 fun v _ => List.find?_eq_none.2 fun y _ hy => h y ?_
  exact (Bool.and_eq_true_iff.1 hy).1

end Winner

/-! ### TAKE NOTICE (R167) -/

/-- The state after a notice is taken: the winner's flag cleared, its level the ceiling. -/
def takenNotice (s : State) (x : NoticeSource) : State :=
  (s.clearEvent x).withNotices { (s.clearEvent x).notices with ceiling := s.noticeLevel x }

section Take

variable {s : State} {x y : NoticeSource}

theorem ownTakeNotice_none (h : s.winner = none) :
    ownTakeNotice s = (s, ⟨.done, [0, byteOf s.notices.ceiling.val], none⟩) := by
  unfold ownTakeNotice
  rw [h]
  rfl

theorem ownTakeNotice_some (h : s.winner = some x) :
    ownTakeNotice s = (takenNotice s x, ⟨.done, [byteOf (x.index.val + 1), byteOf s.notices.ceiling.val], none⟩) := by
  unfold ownTakeNotice
  rw [h]
  rfl

theorem takenNotice_noticePending : (takenNotice s x).noticePending y = true ↔
    s.noticePending y = true ∧ (y = x → x = .linkADown ∨ x = .linkBDown) := by
  have hflags : (takenNotice s x).noticePending y = (s.clearEvent x).noticePending y := noticePending_congr rfl rfl rfl
  rw [hflags, clearEvent_noticePending]

theorem takenNotice_rest : { takenNotice s x with notices := s.notices } = s := clearEvent_rest s x

/-- No source beats the winner's level, and that level is now the ceiling, so nothing qualifies. -/
theorem takenNotice_winner (h : s.winner = some x) : (takenNotice s x).winner = none := by
  obtain ⟨hx, hleast⟩ := winner_eq_some h
  refine winner_eq_none fun y hy => ?_
  obtain ⟨hpending, hunder⟩ := qualifies_iff.1 hy
  have hbelow : s.noticeLevel y < s.noticeLevel x := hunder
  have hceiling : s.noticeLevel x < s.notices.ceiling := (qualifies_iff.1 hx).2
  have hqualified : s.qualifies y = true :=
    qualifies_iff.2 ⟨(takenNotice_noticePending.1 hpending).1, hbelow.trans hceiling⟩
  exact absurd hbelow (hleast y hqualified).not_gt

theorem exec_takeNotice_of_own {o : Owned} (hc : s.collecting = true) (ho : ownTakeNotice s = o) :
    exec .takeNotice s = .next (State.answered 0x10 0 o) :=
  (exec_takeNotice s).trans (receive_eq hc rfl rfl ho)

end Take

/-- Settles O15: with a winner the effect is `takenNotice`, whose rules are above; with none nothing changes. -/
theorem takeNotice : Obligations.TakeNotice := by
  unfold Obligations.TakeNotice
  intro s hc
  refine ⟨fun hnone => exec_takeNotice_of_own hc (ownTakeNotice_none hnone), fun x hx => ?_⟩
  exact ⟨takenNotice s x, exec_takeNotice_of_own hc (ownTakeNotice_some hx), rfl, rfl,
    fun y => takenNotice_noticePending, takenNotice_winner hx, takenNotice_rest⟩

/-! ### NOTICE DONE (R168), CLEAR NOTICE (R169) and SET NOTICE LEVEL (R170) -/

section Settings

variable {s : State} {b level : Byte} {x y : NoticeSource}

theorem ownNoticeDone_eq {c : Fin 8} {r : ResultCode} (hclamp : clampLevel b = c) (hresult : levelResult b = r) :
    ownNoticeDone b s = ({ s with notices := { s.notices with ceiling := c } }, ⟨r, [], none⟩) := by
  subst hclamp hresult
  rfl

theorem ownClearNotice_unnamed (h : parseSource b = none) : ownClearNotice b s = (s, ⟨.badArgument, [], none⟩) := by
  unfold ownClearNotice
  rw [h]
  rfl

theorem ownClearNotice_condition (h : parseSource b = some x) (hx : x = .linkADown ∨ x = .linkBDown) :
    ownClearNotice b s = (s, ⟨.badArgument, [], none⟩) := by
  unfold ownClearNotice
  rw [h]
  exact if_pos hx

theorem ownClearNotice_event (h : parseSource b = some x) (hx : ¬ (x = .linkADown ∨ x = .linkBDown)) :
    ownClearNotice b s = (s.clearEvent x, ⟨.done, [], none⟩) := by
  unfold ownClearNotice
  rw [h]
  exact if_neg hx

/-- Clearing an event source clears exactly that source. -/
theorem clearEvent_noticePending_event (hx : ¬ (x = .linkADown ∨ x = .linkBDown)) :
    (s.clearEvent x).noticePending y = true ↔ s.noticePending y = true ∧ y ≠ x := by
  rw [clearEvent_noticePending]
  exact and_congr_right fun _ => imp_congr_right fun _ => iff_false_intro hx

theorem ownSetNoticeLevel_unnamed (h : parseSource b = none) :
    ownSetNoticeLevel b level s = (s, ⟨.badArgument, [], none⟩) := by
  unfold ownSetNoticeLevel
  rw [h]
  rfl

theorem ownSetNoticeLevel_source (h : parseSource b = some x) :
    ownSetNoticeLevel b level s =
      (s.setLevel x (clampLevel level), ⟨if level.toNat ≤ 7 then .done else .clamped, [], none⟩) := by
  unfold ownSetNoticeLevel
  rw [h]
  rfl

/-- A level set is the named source's alone. -/
theorem setLevel_noticeLevel (v : Fin 8) :
    (s.setLevel x v).noticeLevel y = if y = x then v else s.noticeLevel y := by
  simp [State.noticeLevel, State.setLevel, index_inj]

theorem exec_noticeDone_of_own {o : Owned} (hc : s.collecting = true) (ho : ownNoticeDone b s = o) :
    exec (.noticeDone b) s = .next (State.answered 0x11 1 o) :=
  (exec_noticeDone b s).trans (receive_eq hc rfl rfl ho)

theorem exec_clearNotice_of_own {o : Owned} (hc : s.collecting = true) (ho : ownClearNotice b s = o) :
    exec (.clearNotice b) s = .next (State.answered 0x12 1 o) :=
  (exec_clearNotice b s).trans (receive_eq hc rfl rfl ho)

theorem exec_setNoticeLevel_of_own {o : Owned} (hc : s.collecting = true) (ho : ownSetNoticeLevel b level s = o) :
    exec (.setNoticeLevel b level) s = .next (State.answered 0x13 2 o) :=
  (exec_setNoticeLevel b level s).trans (receive_eq hc rfl rfl ho)

end Settings

/-- Settles O16: the ceiling and level arguments by whether they are above 7, the source argument by whether it names a source
and of which kind. -/
theorem noticeSettings : Obligations.NoticeSettings := by
  unfold Obligations.NoticeSettings
  refine ⟨fun v s hc => ⟨fun c hv => ?_, fun hv => ?_⟩, fun v level s hc => ⟨fun x hv => ?_, fun hv => ?_⟩⟩
  · have hle : v.toNat ≤ 7 := by omega
    exact exec_noticeDone_of_own hc (ownNoticeDone_eq (clampLevel_of_eq hv) (levelResult_of_le hle))
  · exact exec_noticeDone_of_own hc (ownNoticeDone_eq (clampLevel_of_gt hv) (levelResult_of_gt hv))
  · have hparse : parseSource v = some x := parseSource_some hv
    refine ⟨fun hcondition => exec_clearNotice_of_own hc (ownClearNotice_condition hparse hcondition), fun ha hb => ?_, ?_⟩
    · have hevent : ¬ (x = .linkADown ∨ x = .linkBDown) := not_or.2 ⟨ha, hb⟩
      exact ⟨s.clearEvent x, exec_clearNotice_of_own hc (ownClearNotice_event hparse hevent),
        fun y => clearEvent_noticePending_event hevent, rfl, rfl, clearEvent_rest s x⟩
    · refine ⟨s.setLevel x (clampLevel level), exec_setNoticeLevel_of_own hc (ownSetNoticeLevel_source hparse), ?_,
        fun y hy => ?_, rfl, rfl, setLevel_rest s x _⟩
      · rw [setLevel_noticeLevel, if_pos rfl]
        rfl
      · rw [setLevel_noticeLevel, if_neg hy]
  · have hparse : parseSource v = none := parseSource_none hv
    exact ⟨exec_clearNotice_of_own hc (ownClearNotice_unnamed hparse),
      exec_setNoticeLevel_of_own hc (ownSetNoticeLevel_unnamed hparse)⟩

end Sys2Proof.Proofs
end

section
/-! PROOFS. How an effect on the records moves the heat record and the report with it (R25, Table 2-2), and what a step is in
terms of such effects; the statements O52 and O59 assembled from these. -/

namespace Sys2Proof.Proofs

open Sys2Proof.Machine Sys2Proof.Laws

/-! ### What a step is, in effects on the records -/

/-- A step has an effect on a state of the same records, or no event is due and one unit of track time passes. -/
theorem step_effect {s t : State} (h : step s = .next t) :
    (∃ v u, SameRecords s v ∧ RecordEffect v u ∧ SameRecords u t) ∨ s.dueEvent = none ∧ t = s.passUnit := by
  have of_exec : ∀ {i : Instr} {v : State}, SameRecords s v → exec i v = .next t →
      ∃ v u, SameRecords s v ∧ RecordEffect v u ∧ SameRecords u t := by
    intro i v hv hx
    obtain ⟨u, hu, hsame⟩ := exec_effect hx
    exact ⟨v, u, hv, hu, hsame⟩
  rcases step_cases h with ⟨c, rest, _, hx⟩ | ⟨_, e, _, hx⟩ | ⟨_, _, e, rest, _, hx⟩ | ⟨_, hdue, _, hx⟩
  · exact .inl (of_exec ⟨_, _, _, _, _, _, _, _, _, rfl⟩ hx)
  · exact .inl (of_exec (.refl s) hx)
  · rcases takeEdge_effect _ hx with ⟨p, sck, wp, rfl⟩ | ⟨i, p, sck, _, _, hi⟩
    · exact .inl ⟨_, _, .refl s, .none, ⟨_, _, _, _, _, _, _, _, _, rfl⟩⟩
    · exact .inl (of_exec ⟨_, _, _, _, _, _, _, _, _, rfl⟩ hi)
  · exact .inr ⟨hdue, hx⟩

/-! ### Reports come from lanes in SET and WATCH (R119, R122, R126) -/

theorem takeInSet_report (l : Lane) (c : Settings) (x : Sample) :
    (l.takeInSet c x).2 = none ∨ (l.takeInSet c x).2 = some .earlyMove := by
  rcases takeInSet_cases l c x with ⟨h, _⟩ | ⟨_, ⟨f, h, _⟩ | ⟨f, _, _, ⟨o, _, h⟩ | ⟨_, h⟩⟩⟩ <;> simp [h]

theorem takeSample_report {c : Settings} {h : HeatState} {g : Option Stamp} {i : LaneNo} {x : Sample} {l : Lane}
    {r : LaneReport} (hr : (l.takeSample c h g i x).2 = some r) : h = .set ∧ r = .earlyMove ∨ h = .watch := by
  by_cases hs : h = .set
  · subst hs
    rw [takeSample_set] at hr
    split at hr
    · rcases takeInSet_report (l.noteFresh x) c x with h | h <;> simp_all
    · split at hr <;> simp at hr
  · by_cases hw : h = .watch
    · exact .inr hw
    · simp [takeSample_idle l hs hw] at hr

theorem sampleDelivery_report {s : State} {k : LinkId} {f : FrameInProgress} {w : Vector (BitVec 40) 6} {i : LaneNo}
    {l : Lane} {r : LaneReport} (hr : (sampleDelivery s k f w i l).2 = some r) :
    s.heat.state = .set ∧ r = .earlyMove ∨ s.heat.state = .watch := by
  unfold sampleDelivery at hr
  split at hr
  · simp at hr
  · exact takeSample_report hr

theorem lossIndication_report {c : Settings} {h : HeatState} {k : LinkId} {i : LaneNo} {l : Lane} {r : LaneReport}
    (hr : (lossIndication c h k i l).2 = some r) : h = .watch ∧ r = .unsureLane := by
  unfold lossIndication Lane.linkLost at hr
  repeat' split at hr
  all_goals simp_all

/-- A recall comes of the lanes' reports only when one reports a false onset or an unsure lane. -/
theorem takeReports_heat_of_silent {s : State} {f : LaneNo → Lane → Lane × Option LaneReport}
    (hf : ∀ i, (f i s.lanes[i]).2 = none ∨ (f i s.lanes[i]).2 = some .earlyMove) : (s.takeReports f).heat = s.heat := by
  have hn : ∀ r, r ≠ .earlyMove → s.reported f r = false := by
    intro r hr
    rw [← Bool.not_eq_true, reported_iff]
    rintro ⟨i, hi⟩
    rcases hf i with h | h <;> simp_all
  rw [takeReports_heat, hn _ (by simp), hn _ (by simp)]
  simp

/-! ### The moves of the heat record -/

/-- How an effect moves the heat record and the report. -/
inductive HeatMove (s u : State) : Prop where
  | same (hh : u.heat = s.heat) (hr : u.report = s.report)
  | cleared (p : Option Stamp) (hh : u.heat = { Heat.cleared with pulseEnd := p }) (hr : u.report = none)
  | opened (n : Nat) (p : Policy) (hi : s.heat.state = .idle) (hs : s.profile.isSaving = false) (hn : 1 ≤ n ∧ n ≤ 65535)
      (hh : u.heat = { s.heat with
        state := .roster, attempt := 0, id := some ⟨n, p⟩, gunStamp := none, issued := none, warning := none })
      (hr : u.report = none)
  | marksCalled (h : s.heat.state = .roster ∨ s.heat.state = .review) (ha : s.heat.attempt < 15)
      (hh : u.heat = { s.heat with
        state := .marks, attempt := s.heat.attempt + 1, gunStamp := none, issued := none, closeTime := none,
        deadlineTime := none, warning := s.heat.warning.map fun w => { w with final := true } })
      (hr : u.report = s.report)
  | setCalled (h : s.heat.state = .marks) (hh : u.heat = { s.heat with state := .set }) (hr : u.report = s.report)
  | stoodUp (h : s.heat.state = .marks ∨ s.heat.state = .set) (hh : u.heat = { s.heat with state := .review })
      (hr : u.report = some s.endAttempt.standUpReport)
  | gunTaken (g c d : Stamp) (i : Option RecallRecord) (p : Option Stamp) (h : s.heat.state = .set)
      (hh : u.heat = { s.heat with
        state := .watch, gunStamp := some g, closeTime := some c, deadlineTime := some d, issued := i, pulseEnd := p })
      (hr : u.report = s.report)
  | recalled (i : Option RecallRecord) (p : Option Stamp) (h : s.heat.state = .watch)
      (hh : u.heat = { s.heat with issued := i, pulseEnd := p }) (hr : u.report = s.report)
  | recalledRunning (i : Option RecallRecord) (p : Option Stamp) (h : s.heat.state = .running)
      (hh : u.heat = { s.heat with issued := i, pulseEnd := p, deadlineTime := none, state := .review })
      (hr : u.report = s.amendReport.report)
  | closed (h : s.heat.state = .watch) (hh : u.heat = s.closeAttempt.heat) (hr : u.report = some (atClose s).closeReport)
  | deadlinePassed (h : s.heat.state = .running) (hh : u.heat = { s.heat with deadlineTime := none, state := .done })
      (hr : u.report = s.report)
  | warningRescinded (w : FieldWarning) (h : reviewState s.heat.state = true) (hw : s.heat.warning = some w)
      (hf : w.final = false) (hh : u.heat = { s.heat with warning := none }) (hr : u.report = s.report)
  | pulseEnded (hh : u.heat = { s.heat with pulseEnd := none }) (hr : u.report = s.report)

theorem issueRecall_heat (s : State) (c : RecallCause) :
    (s.issueRecall c).heat = { s.heat with
      issued := (s.issueRecall c).heat.issued, pulseEnd := (s.issueRecall c).heat.pulseEnd } := by
  unfold State.issueRecall
  split <;> simp

/-- The lanes' reports change the recall and the pulse alone. -/
theorem takeReports_heat_recall {s v : State} (hv : v.heat = s.heat) (f : LaneNo → Lane → Lane × Option LaneReport) :
    (v.takeReports f).heat = { s.heat with
      issued := (v.takeReports f).heat.issued, pulseEnd := (v.takeReports f).heat.pulseEnd } := by
  rw [takeReports_heat, ← hv]
  repeat' split
  all_goals rfl

/-- The reports of a frame or of a lost link move the heat record as a recall in WATCH, and not at all elsewhere. -/
theorem takeReports_heatMove {s v u : State} {f : LaneNo → Lane → Lane × Option LaneReport} (hv : v.heat = s.heat)
    (hf : ∀ i r, (f i v.lanes[i]).2 = some r → r = .earlyMove ∨ s.heat.state = .watch)
    (hh : u.heat = (v.takeReports f).heat) (hr : u.report = s.report) : HeatMove s u := by
  by_cases hw : s.heat.state = .watch
  · exact .recalled _ _ hw (hh.trans (takeReports_heat_recall hv f)) hr
  · refine .same (hh.trans ((takeReports_heat_of_silent fun i => ?_).trans hv)) hr
    cases hi : (f i v.lanes[i]).2 with
    | none => exact .inl rfl
    | some r => exact .inr (congrArg some ((hf i r hi).resolve_right hw))

theorem deliver_heatMove (s : State) (k : LinkId) (f : FrameInProgress) (w : Vector (BitVec 40) 6) :
    HeatMove s (s.deliver k f w) :=
  takeReports_heatMove (withLink_heat s k _) (fun _ _ h => (sampleDelivery_report h).imp_left And.right)
    (settlePermit_heat _) (deliver_report s k f w)

theorem loseLink_heatMove (s : State) (k : LinkId) : HeatMove s (s.loseLink k) :=
  takeReports_heatMove (withLink_heat s k _) (fun _ _ h => .inr (lossIndication_report h).1) (settlePermit_heat _)
    (loseLink_report s k)

theorem starterRecall_heatMove {s v : State} (hv : v.heat = s.heat) (hw : v.report = s.report)
    (hs : s.heat.state = .watch ∨ s.heat.state = .running) : HeatMove s v.starterRecall := by
  have hr := starterRecall_report v
  have hh := starterRecall_heat v
  rcases hs with hs | hs
  · rw [if_neg (by simp [hv, hs])] at hh hr
    exact .recalled _ _ hs (hh.trans (by rw [issueRecall_heat, hv])) (hr.trans hw)
  · rw [if_pos (by rw [hv, hs])] at hh hr
    exact .recalledRunning _ _ hs (hh.trans (by rw [issueRecall_heat, hv])) (hr.trans (by simp [hw]))

theorem acceptGun_heatMove (s : State) (q : Qualification) : HeatMove s (s.acceptGun q) := by
  unfold State.acceptGun State.takeGun
  split
  · next h =>
    exact .gunTaken q.edge _ _ _ _ h ((settlePermit_heat _).trans (takeReports_heat_recall rfl _)) (startAttempt_report _ _)
  · next h => exact starterRecall_heatMove rfl rfl (.inl h)
  · next h => exact starterRecall_heatMove rfl rfl (.inr h)
  · exact .same (raise_heat _ _) (raise_report _ _)

/-- Every effect makes one of the moves. -/
theorem effect_heatMove {s u : State} (h : RecordEffect s u) : HeatMove s u := by
  cases h
  case softReset => exact .cleared none (softReset_heat s) (softReset_report s)
  case fullReset => exact .cleared none (by simp [State.fullReset, Heat.cleared]) (by simp [State.fullReset])
  case closeHeat => exact .cleared _ rfl rfl
  case openHeat n p hi hs hn =>
    refine .opened n.toNat p hi hs ⟨?_, ?_⟩ rfl rfl
    · have : n.toNat ≠ 0 := fun h => hn (BitVec.eq_of_toNat_eq h)
      omega
    · have := n.isLt
      omega
  case callMarks hh _ ha => exact .marksCalled hh ha (beginAttempt_heat s) (beginAttempt_report s)
  case callSet hh _ => exact .setCalled hh (setField_heat s) (setField_report s)
  case standUp hh => exact .stoodUp hh (standField_heat s) (standField_report s)
  case starterRecall hh => exact starterRecall_heatMove rfl rfl hh
  case gunAcceptance q _ => exact acceptGun_heatMove s q
  case closeExpiry h => exact .closed h rfl (closeAttempt_report_atClose s)
  case deadlineExpiry h => exact .deadlinePassed h rfl (passDeadline_report s)
  case rescindFieldWarning w hh hw hf => exact .warningRescinded w hh hw hf rfl rfl
  case pulseEnd => exact .pulseEnded rfl rfl
  case linkLost k _ => exact loseLink_heatMove s k
  case frameArrival k f w _ => exact deliver_heatMove s k f w
  all_goals exact .same (by simp) (by simp)

theorem HeatMove.congr {s u t : State} (hm : HeatMove s u) (hh : t.heat = u.heat) (hr : t.report = u.report) :
    HeatMove s t := by
  cases hm
  case same h k => exact .same (hh.trans h) (hr.trans k)
  case cleared p h k => exact .cleared p (hh.trans h) (hr.trans k)
  case opened n p hi hs hn h k => exact .opened n p hi hs hn (hh.trans h) (hr.trans k)
  case marksCalled g ha h k => exact .marksCalled g ha (hh.trans h) (hr.trans k)
  case setCalled g h k => exact .setCalled g (hh.trans h) (hr.trans k)
  case stoodUp g h k => exact .stoodUp g (hh.trans h) (hr.trans k)
  case gunTaken g c d i p hs h k => exact .gunTaken g c d i p hs (hh.trans h) (hr.trans k)
  case recalled i p g h k => exact .recalled i p g (hh.trans h) (hr.trans k)
  case recalledRunning i p g h k => exact .recalledRunning i p g (hh.trans h) (hr.trans k)
  case closed g h k => exact .closed g (hh.trans h) (hr.trans k)
  case deadlinePassed g h k => exact .deadlinePassed g (hh.trans h) (hr.trans k)
  case warningRescinded w g hw hf h k => exact .warningRescinded w g hw hf (hh.trans h) (hr.trans k)
  case pulseEnded h k => exact .pulseEnded (hh.trans h) (hr.trans k)

theorem sameRecords_heat {u t : State} (h : SameRecords u t) : t.heat = u.heat := by
  obtain ⟨_, _, _, _, _, _, _, _, _, rfl⟩ := h
  rfl

theorem sameRecords_report {u t : State} (h : SameRecords u t) : t.report = u.report := by
  obtain ⟨_, _, _, _, _, _, _, _, _, rfl⟩ := h
  rfl

/-- Every step makes one of the moves, from a state of the same records. -/
theorem step_heatMove {s t : State} (h : step s = .next t) : ∃ v, SameRecords s v ∧ HeatMove v t := by
  rcases step_effect h with ⟨v, u, hv, hu, ht⟩ | ⟨_, rfl⟩
  · exact ⟨v, hv, (effect_heatMove hu).congr (sameRecords_heat ht) (sameRecords_report ht)⟩
  · exact ⟨s, .refl s, .same (passUnit_heat s) (passUnit_report s)⟩

/-! ### Table 2-2 -/

/-- The states that a close leaves the heat in (R45, R46). -/
theorem closeAttempt_state (s : State) :
    s.closeAttempt.heat.state = .running ∨ s.closeAttempt.heat.state = .done ∨ s.closeAttempt.heat.state = .review := by
  rw [closeAttempt_heat]
  dsimp only
  repeat' split
  all_goals simp

theorem closeAttempt_attempt (s : State) : s.closeAttempt.heat.attempt = s.heat.attempt := by
  rw [closeAttempt_heat]

/-- The heat state after a move that does not leave the heat in IDLE: the same, or one that Table 2-2 lists. -/
theorem HeatMove.state {s u : State} (hm : HeatMove s u) (hu : u.heat.state ≠ .idle) :
    u.heat.state = s.heat.state ∨ (s.heat.state, u.heat.state) ∈
      ([(.idle, .roster), (.roster, .marks), (.marks, .set), (.marks, .review), (.set, .watch), (.set, .review),
        (.watch, .running), (.watch, .done), (.watch, .review), (.running, .done), (.running, .review),
        (.review, .marks)] : List (HeatState × HeatState)) := by
  cases hm
  case cleared p hh _ => simp [hh, Heat.cleared] at hu
  case marksCalled h _ hh _ => rcases h with h | h <;> simp [hh, h]
  case stoodUp h hh _ => rcases h with h | h <;> simp [hh, h]
  case closed h hh _ => rcases closeAttempt_state s with hc | hc | hc <;> simp [hh, h, hc]
  all_goals simp_all

/-- The attempt number after such a move: raised by the entry to MARKS, and kept by every other (R29). -/
theorem HeatMove.attempt {s u : State} (hm : HeatMove s u) (hs : s.HeatLaw) (hu : u.heat.state ≠ .idle) :
    u.heat.attempt = if u.heat.state = .marks ∧ s.heat.state ≠ .marks then s.heat.attempt + 1 else s.heat.attempt := by
  cases hm
  case cleared p hh _ => simp [hh, Heat.cleared] at hu
  case opened hi _ _ hh _ =>
    have hz : s.heat.attempt = 0 := hs.attemptZero.2 (.inl hi)
    simp [hh, hz]
  case marksCalled h _ hh _ => rcases h with h | h <;> simp [hh, h]
  case closed h hh _ =>
    have hn : s.closeAttempt.heat.state ≠ .marks := by rcases closeAttempt_state s with hc | hc | hc <;> simp [hc]
    simp [hh, hn, closeAttempt_attempt]
  all_goals simp_all

theorem heatLaw_congr {s t : State} (hh : t.heat = s.heat) (hr : t.report = s.report) (hs : s.HeatLaw) : t.HeatLaw := by
  constructor <;> rw [hh] <;> try rw [hr]
  exacts [hs.attempt, hs.attemptZero, hs.id, hs.number, hs.closeTime, hs.deadline, hs.gunAbsent, hs.gunPresent, hs.issued,
    hs.reportEarly, hs.reportBefore, hs.reportAfter, hs.reportClean]

theorem sameRecords_heatLaw {u t : State} (h : SameRecords u t) (hu : u.HeatLaw) : t.HeatLaw :=
  heatLaw_congr (sameRecords_heat h) (sameRecords_report h) hu

/-- Settles O59: every step makes one of the moves of the heat record, and each is a row of Table 2-2. -/
theorem heatTransitions : Obligations.HeatTransitions := by
  unfold Obligations.HeatTransitions
  intro s t hs h ht
  obtain ⟨v, hv, hm⟩ := step_heatMove h
  have hattempt := hm.attempt (sameRecords_heatLaw hv hs) ht
  rw [sameRecords_heat hv] at hattempt
  refine ⟨sameRecords_heat hv ▸ hm.state ht, fun hmarks hnot => ?_, fun hnot => ?_⟩
  · rw [hattempt, if_pos ⟨hmarks, hnot⟩]
  · rw [hattempt, if_neg hnot]

/-! ### The law of the settings store (R186, R188, R191) -/

theorem settingsLaw_iff (s : State) :
    s.SettingsLaw ↔ LegalSettings s.settings ∧
      ∀ image since, s.profile = .saving image since → s.heat.state = .idle ∧ image = imageOf s.settings :=
  ⟨fun h => ⟨⟨h.range, h.links, h.apart⟩, h.saving⟩, fun ⟨hl, hs⟩ => ⟨hl.range, hl.links, hl.apart, hs⟩⟩

/-- A profile load gives legal settings (R192). -/
theorem loadedSettings_legal (s : State) : LegalSettings s.loadedSettings := by
  unfold State.loadedSettings
  split
  · next h =>
    simp only [imageAccepted, Bool.and_eq_true] at h
    exact (legal_iff _).1 h.2
  · exact defaults_legal

theorem loadedProfile_not_saving (s : State) (image : Image) (since : Stamp) : s.loadedProfile ≠ .saving image since := by
  unfold State.loadedProfile
  split <;> simp

/-- The settings after an effect: the same, with the profile state too or with the heat in IDLE; or legal ones, with no save in
progress. -/
theorem effect_settings {s u : State} (hs : LegalSettings s.settings) (h : RecordEffect s u) :
    (u.settings = s.settings ∧ (u.profile = s.profile ∨ (∀ image since, u.profile ≠ .saving image since) ∨
        s.heat.state = .idle ∧ u.heat = s.heat ∧ u.profile = .saving (imageOf s.settings) s.trackTime)) ∨
      (LegalSettings u.settings ∧ ∀ image since, u.profile ≠ .saving image since) := by
  cases h
  case softReset =>
    exact .inr ⟨softReset_settings s ▸ loadedSettings_legal s, softReset_profile s ▸ loadedProfile_not_saving s⟩
  case fullReset =>
    refine .inr ⟨?_, ?_⟩
    · rw [State.fullReset, raiseIf_settings]
      exact loadedSettings_legal _
    · rw [State.fullReset, raiseIf_profile]
      exact loadedProfile_not_saving _
  case writeSetting k v _ hp hr =>
    refine .inr ⟨written_legal _ hs hr, fun image since h => ?_⟩
    rw [changeSettings_profile] at h
    simp [h, ProfileState.isSaving] at hp
  case saveProfile hi => exact .inl ⟨rfl, .inr (.inr ⟨hi, rfl, rfl⟩)⟩
  case saveComplete => exact .inl ⟨rfl, .inr (.inl (by simp))⟩
  case loadProfile =>
    exact .inr ⟨loadProfile_settings s ▸ loadedSettings_legal s, loadProfile_profile s ▸ loadedProfile_not_saving s⟩
  case gunAcceptance => exact .inl ⟨by simp [State.acceptGun], .inl (by simp [State.acceptGun])⟩
  all_goals exact .inl ⟨by simp, .inl (by simp)⟩

/-- While a save is in progress a move that keeps the profile leaves the heat in IDLE (R191). -/
theorem HeatMove.idle_of_saving {s u : State} (hm : HeatMove s u) (hi : s.heat.state = .idle)
    (hp : s.profile.isSaving = true) : u.heat.state = .idle := by
  cases hm
  case same hh _ | pulseEnded hh _ => rw [hh]; exact hi
  case cleared hh _ => rw [hh]; rfl
  case warningRescinded hh _ => rw [hh]; exact hi
  all_goals simp_all

theorem effect_keeps_settingsLaw {s u : State} (hs : s.SettingsLaw) (h : RecordEffect s u) : u.SettingsLaw := by
  rw [settingsLaw_iff] at hs ⊢
  obtain ⟨hlegal, hsaving⟩ := hs
  rcases effect_settings hlegal h with ⟨hsame, hp | hp | ⟨hi, hheat, hp⟩⟩ | ⟨hl, hp⟩
  · refine ⟨hsame ▸ hlegal, fun image since hu => ?_⟩
    have hsave : s.profile = .saving image since := hp ▸ hu
    obtain ⟨hi, himage⟩ := hsaving image since hsave
    exact ⟨(effect_heatMove h).idle_of_saving hi (by rw [hsave]; rfl), hsame ▸ himage⟩
  · exact ⟨hsame ▸ hlegal, fun image since hu => absurd hu (hp image since)⟩
  · refine ⟨hsame ▸ hlegal, fun image since hu => ?_⟩
    obtain ⟨himage, _⟩ := ProfileState.saving.inj (hp.symm.trans hu)
    exact ⟨hheat ▸ hi, hsame ▸ himage.symm⟩
  · exact ⟨hl, fun image since hu => absurd hu (hp image since)⟩

theorem sameRecords_settingsLaw {u t : State} (h : SameRecords u t) (hu : u.SettingsLaw) : t.SettingsLaw := by
  obtain ⟨_, _, _, _, _, _, _, _, _, rfl⟩ := h
  exact (settingsLaw_iff _).2 ((settingsLaw_iff u).1 hu)

/-- Settles O52: every effect on the records keeps the law, which reads nothing else. -/
theorem settingsLawKept : Obligations.SettingsLawKept := by
  unfold Obligations.SettingsLawKept
  exact fun _ _ hs h => step_keeps_law (fun _ _ => sameRecords_settingsLaw)
    (fun s _ hs => (settingsLaw_iff _).2 ((settingsLaw_iff s).1 hs)) (fun _ _ => effect_keeps_settingsLaw) hs h

end Sys2Proof.Proofs
end

section
/-! PROOFS. The law of the heat record (R29, Tables 1-5, 1-6 and 2-1) and the law of finality (R161): each is kept by every move
of the heat record, and by every change of an entry that comes with it. -/

namespace Sys2Proof.Proofs

open Sys2Proof.Machine Sys2Proof.Laws

/-! ### The law of the heat record -/

/-- A move within one heat state that changes no more than the pulse, the warning and, in WATCH, the recall. -/
theorem heatLaw_of_sameState {s u : State} (hs : s.HeatLaw) {i : Option RecallRecord} {p : Option Stamp}
    {w : Option FieldWarning} (hh : u.heat = { s.heat with issued := i, pulseEnd := p, warning := w })
    (hi : i = s.heat.issued ∨ s.heat.state = .watch) (hr : u.report = s.report) : u.HeatLaw := by
  refine ⟨?_, ?_, ?_, ?_, ?_, ?_, ?_, ?_, ?_, ?_, ?_, ?_, ?_⟩ <;> rw [hh] <;> try rw [hr]
  case refine_9 =>
    rcases hi with rfl | hi
    · exact hs.issued
    · exact fun hn => absurd hi hn
  exacts [hs.attempt, hs.attemptZero, hs.id, hs.number, hs.closeTime, hs.deadline, hs.gunAbsent, hs.gunPresent,
    hs.reportEarly, hs.reportBefore, hs.reportAfter, hs.reportClean]

theorem standUpReport_attempt (s : State) : s.endAttempt.standUpReport.attempt = s.heat.attempt := by
  simp [State.standUpReport]

/-- A starter's recall keeps the attempt number of the report (R147). -/
theorem amendReport_attempt {s : State} {r : Report} (h : s.report = some r) :
    ∃ q, s.amendReport.report = some q ∧ q.attempt = r.attempt := by
  rw [amendReport_report, h]
  refine ⟨_, rfl, ?_⟩
  dsimp only
  split <;> rfl

/-- The close judges the heat record of the attempt, its close time cancelled. -/
theorem atClose_heat (s : State) : (atClose s).heat = { s.heat with closeTime := none } := by
  simp [atClose]

theorem closeAttempt_heat_atClose (s : State) :
    s.closeAttempt.heat = { s.heat with
      closeTime := none, warning := (atClose s).warningAfter
      state := if (atClose s).outcome = .clean then if timerDue s.heat.deadlineTime s.trackTime then .done else .running
        else .review
      deadlineTime := if (atClose s).outcome = .clean then
          if timerDue s.heat.deadlineTime s.trackTime then none else s.heat.deadlineTime
        else none } :=
  closeAttempt_heat s

/-- A clean close comes without a recall (R141). -/
theorem issued_of_clean {s : State} (h : s.outcome = .clean) : s.heat.issued = none := by
  unfold State.outcome outcomeOf at h
  cases hi : s.heat.issued with
  | none => rfl
  | some r =>
    rw [hi] at h
    cases hc : r.cause <;> simp [hc] at h <;> split at h <;> simp at h

/-- The close writes a report of the attempt, and leaves WATCH for RUNNING, DONE or REVIEW (R44, R45, R46). -/
theorem heatLaw_of_close {s u : State} (hs : s.HeatLaw) (h : s.heat.state = .watch) (hh : u.heat = s.closeAttempt.heat)
    (hr : u.report = some (atClose s).closeReport) : u.HeatLaw := by
  obtain ⟨hattempt, hzero, hid, hnumber, _, hdeadline, _, hgun, _, _, _, _, _⟩ := hs
  rw [closeAttempt_heat_atClose] at hh
  have hreport : (atClose s).closeReport.attempt = s.heat.attempt := by simp [State.closeReport, atClose_heat]
  have hstamp : (atClose s).closeReport.gunStamp = s.heat.gunStamp := by simp [State.closeReport, atClose_heat]
  have houtcome : (atClose s).closeReport.outcome = (atClose s).outcome := rfl
  by_cases hc : (atClose s).outcome = .clean
  · have hissued : s.heat.issued = none := by simpa [atClose_heat] using issued_of_clean hc
    by_cases hd : timerDue s.heat.deadlineTime s.trackTime = true
    all_goals
      simp only [hc, hd, if_true] at hh
      constructor <;>
        simp_all [HeatState.early, HeatState.inAttempt, HeatState.stood, reviewState]
  · simp only [hc, if_false] at hh
    constructor <;> simp_all [HeatState.early, HeatState.inAttempt, HeatState.stood, reviewState]

theorem heatMove_keeps_heatLaw {s u : State} (hs : s.HeatLaw) (hm : HeatMove s u) : u.HeatLaw := by
  cases hm
  case same hh hr => exact heatLaw_congr hh hr hs
  case recalled h hh hr => exact heatLaw_of_sameState hs hh (.inr h) hr
  case warningRescinded hh hr => exact heatLaw_of_sameState hs hh (.inl rfl) hr
  case pulseEnded hh hr => exact heatLaw_of_sameState hs hh (.inl rfl) hr
  case closed h hh hr => exact heatLaw_of_close hs h hh hr
  case cleared hh hr =>
    constructor <;> simp [hh, hr, Heat.cleared, HeatState.early, HeatState.inAttempt, HeatState.stood, reviewState]
  all_goals obtain ⟨hattempt, hzero, hid, hnumber, hclose, hdeadline, hno, hgun, hissued, hearly, hbefore, hafter, hclean⟩ := hs
  case marksCalled h ha hh hr =>
    rcases h with h | h
    all_goals
      rw [h] at hzero hid hearly hafter
      constructor <;> simp_all [HeatState.early, HeatState.inAttempt, HeatState.stood, reviewState]
  case stoodUp h hh hr =>
    have hreport := standUpReport_attempt s
    rcases h with h | h
    all_goals constructor <;> simp_all [HeatState.early, HeatState.inAttempt, HeatState.stood, reviewState]
  case recalledRunning h hh hr =>
    obtain ⟨r, hreport, hnumber'⟩ := hafter (by simp [h, reviewState])
    obtain ⟨q, hq, hqa⟩ := amendReport_attempt hreport
    rw [hq] at hr
    constructor <;> simp_all [HeatState.early, HeatState.inAttempt, HeatState.stood, reviewState]
  all_goals constructor <;> simp_all [HeatState.early, HeatState.inAttempt, HeatState.stood, reviewState]

end Sys2Proof.Proofs
end

section
/-! PROOFS. What an effect on the records makes of one lane, said once, with where the heat goes at it. -/

namespace Sys2Proof.Proofs

open Sys2Proof.Machine Sys2Proof.Laws

/-! ### What becomes of one lane -/

/-- The heat neither enters nor leaves an attempt. -/
def Quiet (s u : State) : Prop :=
  u.heat.attempt = s.heat.attempt ∧ u.heat.state = s.heat.state ∨ s.heat.state = .idle ∧ u.heat.state = .roster ∨
    u.heat.attempt = s.heat.attempt ∧ s.heat.state = .running ∧ (u.heat.state = .done ∨ u.heat.state = .review)

/-- What an effect makes of lane `i`, with where the heat goes. -/
inductive LaneMove (s u : State) (i : LaneNo) : Prop where
  | kept (hl : u.lanes[i] = s.lanes[i]) (hc : u.settings = s.settings) (hq : Quiet s u)
  | resensed (hl : u.lanes[i] = s.lanes[i].settingsChange s.settings u.settings i) (hs : s.heat.state.early)
      (hh : u.heat = s.heat)
  | cleared (hl : u.lanes[i] = Lane.cleared) (hh : u.heat = Heat.cleared)
  | retired (hl : u.lanes[i] = s.lanes[i].vacate) (hu : u.heat.state = .idle) (hs : ¬ s.heat.state = .idle)
      (hc : u.settings = s.settings)
  | vacated (hl : u.lanes[i] = s.lanes[i].vacate) (hs : s.heat.state = .roster) (hh : u.heat = s.heat)
      (hc : u.settings = s.settings)
  | entered (b : Nat) (hl : u.lanes[i] = s.lanes[i].enter b) (hv : s.lanes[i].entry = none) (hs : s.heat.state = .roster)
      (hi : s.settings.canEnter i = true) (hh : u.heat = s.heat) (hc : u.settings = s.settings)
  | withdrawn (hl : u.lanes[i] = s.lanes[i].withdraw) (he : s.lanes[i].eligible = true)
      (hs : s.heat.state ≠ .idle ∧ s.heat.state ≠ .set ∧ s.heat.state ≠ .watch) (hh : u.heat = s.heat)
      (hc : u.settings = s.settings)
  | marksCalled (hl : u.lanes[i] = s.lanes[i].attemptCleared.changeEntry Entry.finalize)
      (hs : s.heat.state = .roster ∨ s.heat.state = .review) (hu : u.heat.state = .marks)
      (ha : u.heat.attempt = s.heat.attempt + 1) (hc : u.settings = s.settings)
  | setCalled (hl : u.lanes[i] = if s.lanes[i].eligible then s.lanes[i].attemptSet else s.lanes[i])
      (hs : s.heat.state = .marks) (hu : u.heat = { s.heat with state := .set }) (hc : u.settings = s.settings)
  | stoodUp (hl : u.lanes[i] = if s.lanes[i].eligible then
        s.lanes[i].attemptEnded.changeEntry fun e => { e with result := some ⟨.notStarted, false⟩ } else s.lanes[i])
      (hs : s.heat.state = .marks ∨ s.heat.state = .set) (hu : u.heat = { s.heat with state := .review })
      (hc : u.settings = s.settings)
  | charged (x : Effect) (e : Entry)
      (hl : u.lanes[i] = s.lanes[i].changeEntry (Entry.charge s.heat.attempt x .referee))
      (hs : reviewState s.heat.state = true) (he : s.lanes[i].entry = some e) (hw : e.standing ≠ .withdrawn)
      (hd : e.standing ≠ .disqualified) (hx : x = .caution → e.holds .caution = false) (hh : u.heat = s.heat)
      (hc : u.settings = s.settings)
  | rescinded (e : Entry) (c : Charge) (hl : u.lanes[i] = s.lanes[i].changeEntry Entry.rescind)
      (hs : reviewState s.heat.state = true) (he : s.lanes[i].entry = some e) (hn : e.charges.getLast? = some c)
      (hf : c.final = false) (hh : u.heat = s.heat) (hc : u.settings = s.settings)
  | gunTaken (g : Stamp) (hl : u.lanes[i] = (gunIndication s.settings g i s.lanes[i]).1) (hs : s.heat.state = .set)
      (hu : u.heat.state = .watch) (ha : u.heat.attempt = s.heat.attempt) (hc : u.settings = s.settings)
  | judged (hl : u.lanes[i] = (atClose s).judgeLane i (atClose s).lanes[i]) (hs : s.heat.state = .watch)
      (hu : u.heat.state = .running ∨ u.heat.state = .done ∨ u.heat.state = .review)
      (ha : u.heat.attempt = s.heat.attempt) (hc : u.settings = s.settings)
  | linkLost (k : LinkId) (hl : u.lanes[i] = (lossIndication s.settings s.heat.state k i s.lanes[i]).1)
      (hu : u.heat.state = s.heat.state) (ha : u.heat.attempt = s.heat.attempt) (hc : u.settings = s.settings)
  | delivered (k : LinkId) (f : FrameInProgress) (w : Vector (BitVec 40) 6)
      (hl : u.lanes[i] = (sampleDelivery s k f w i s.lanes[i]).1) (hu : u.heat.state = s.heat.state)
      (ha : u.heat.attempt = s.heat.attempt) (hc : u.settings = s.settings)

theorem quiet_of_heat {s u : State} (h : u.heat = s.heat) : Quiet s u := .inl ⟨by rw [h], by rw [h]⟩

/-- A change of one lane moves that lane and keeps the others. -/
theorem laneMove_changeLane {s u : State} {i j : LaneNo} {f : Lane → Lane} (hl : u.lanes = (s.changeLane j f).lanes)
    (hh : u.heat = s.heat) (hc : u.settings = s.settings)
    (hj : i = j → u.lanes[i] = f s.lanes[i] → LaneMove s u i) : LaneMove s u i := by
  have hi : u.lanes[i] = if i = j then f s.lanes[i] else s.lanes[i] := by rw [hl, changeLane_lane]
  by_cases h : i = j
  · exact hj h (hi.trans (if_pos h))
  · exact .kept (hi.trans (if_neg h)) hc (quiet_of_heat hh)

theorem starterRecall_state_attempt (s : State) :
    s.starterRecall.heat.attempt = s.heat.attempt ∧
      (s.starterRecall.heat.state = s.heat.state ∨ s.heat.state = .running ∧ s.starterRecall.heat.state = .review) := by
  rw [starterRecall_heat]
  split
  · next h => exact ⟨by simp, .inr ⟨h, rfl⟩⟩
  · exact ⟨by simp, .inl (by simp)⟩

theorem quiet_starterRecall {s v : State} (hv : v.heat = s.heat) : Quiet s v.starterRecall := by
  obtain ⟨ha, hs | ⟨hs, hr⟩⟩ := starterRecall_state_attempt v <;> rw [hv] at ha hs
  · exact .inl ⟨ha, hs⟩
  · exact .inr (.inr ⟨ha, hs, .inr hr⟩)

/-- An accepted gun indicates to the lanes, or leaves them (R35, R37, R38). -/
theorem acceptGun_lane (s : State) (q : Qualification) (i : LaneNo) :
    (s.acceptGun q).lanes[i] = s.lanes[i] ∨
      (s.acceptGun q).lanes[i] = (gunIndication s.settings q.edge i s.lanes[i]).1 := by
  unfold State.acceptGun State.takeGun
  split
  · exact .inr (startAttempt_getElem _ _ i.val i.isLt)
  · exact .inl (by simp)
  · exact .inl (by simp)
  · exact .inl (by simp)

theorem laneMove_acceptGun (s : State) (q : Qualification) (i : LaneNo) : LaneMove s (s.acceptGun q) i := by
  unfold State.acceptGun State.takeGun
  split
  · next h =>
    exact .gunTaken q.edge (startAttempt_getElem _ _ i.val i.isLt) h (by simp [State.startAttempt])
      (by simp [State.startAttempt]) (startAttempt_settings _ _)
  · exact .kept (by simp) (by simp) (quiet_starterRecall rfl)
  · exact .kept (by simp) (by simp) (quiet_starterRecall rfl)
  · exact .kept (by simp) (by simp) (quiet_of_heat (by simp))

theorem early_of_writable {k : Key} {h : HeatState} (hw : writableIn k h = true) : h.early := by
  unfold writableIn at hw
  cases h <;> simp_all [HeatState.early]

/-- Every effect makes one of these of each lane. -/
theorem effect_laneMove {s u : State} (h : RecordEffect s u) (i : LaneNo) : LaneMove s u i := by
  cases h
  case softReset => exact .cleared (by simp) (softReset_heat s)
  case fullReset => exact .cleared (by simp [State.fullReset]) (by simp [State.fullReset])
  case writeSetting hw _ _ => exact .resensed (by simp) (early_of_writable hw) (changeSettings_heat _ _)
  case loadProfile hi _ => exact .resensed (by simp) (.inl hi) (loadProfile_heat s)
  case openHeat hi _ _ => exact .kept rfl rfl (.inr (.inl ⟨hi, rfl⟩))
  case closeHeat h => exact .retired (mapLanes_lane s _ i) rfl (by rintro hi; simp [hi, closable] at h) rfl
  case enterLane j b _ hr hc _ hv =>
    refine laneMove_changeLane (j := j) (f := Lane.enter b) rfl rfl rfl ?_
    rintro rfl hl
    exact .entered b hl hv hr hc rfl rfl
  case vacateLane j hr =>
    exact laneMove_changeLane (j := j) (f := Lane.vacate) rfl rfl rfl fun _ hl => .vacated hl hr rfl rfl
  case withdrawLane j hh he =>
    refine laneMove_changeLane (j := j) (f := Lane.withdraw) rfl rfl rfl ?_
    rintro rfl hl
    exact .withdrawn hl he hh rfl rfl
  case callMarks hh _ _ => exact .marksCalled (beginAttempt_getElem s i.val i.isLt) hh rfl rfl rfl
  case callSet hh _ => exact .setCalled (setField_getElem s i.val i.isLt) hh (setField_heat s) (setField_settings s)
  case standUp hh => exact .stoodUp (standField_getElem s i.val i.isLt) hh (standField_heat s) (standField_settings s)
  case starterRecall => exact .kept (by simp) (by simp) (quiet_starterRecall rfl)
  case imposeCharge j x e hh he hw hd hx =>
    refine laneMove_changeLane (j := j) (f := Lane.changeEntry (Entry.charge s.heat.attempt x .referee)) rfl rfl rfl ?_
    rintro rfl hl
    exact .charged x e hl hh he hw hd hx rfl rfl
  case rescindCharge j e c hh he hc hf =>
    refine laneMove_changeLane (j := j) (f := Lane.changeEntry Entry.rescind) rfl rfl rfl ?_
    rintro rfl hl
    exact .rescinded e c hl hh he hc hf rfl rfl
  case gunAcceptance q _ => exact laneMove_acceptGun s q i
  case closeExpiry h =>
    refine .judged ?_ h (closeAttempt_state s) (closeAttempt_attempt s) (closeAttempt_settings s)
    rw [closeAttempt_lanes_atClose]
    exact judge_getElem _ i.val i.isLt
  case deadlineExpiry h =>
    exact .kept (by simp) (by simp) (.inr (.inr ⟨rfl, h, .inl rfl⟩))
  case linkLost k _ =>
    exact .linkLost k (loseLink_getElem s k i.val i.isLt) (by simp [State.loseLink]) (by simp [State.loseLink])
      (loseLink_settings s k)
  case frameArrival k f w _ =>
    exact .delivered k f w (deliver_getElem s k f w i.val i.isLt) (by simp [State.deliver]) (by simp [State.deliver])
      (deliver_settings s k f w)
  case rescindFieldWarning | pulseEnd => exact .kept rfl rfl (.inl ⟨rfl, rfl⟩)
  all_goals exact .kept (by simp) (by simp) (quiet_of_heat (by simp))

end Sys2Proof.Proofs
end

section
/-! PROOFS. The laws of the charge list (R8), of closed and unserved lanes (R6, R1) and of the bib index (R9), read off what
becomes of one lane, and the statement O53 assembled from these. -/

namespace Sys2Proof.Proofs

open Sys2Proof.Machine Sys2Proof.Laws

/-! ### The law of the charge list and the standing (R8) -/

/-- A lane that is eligible to start has an entry that is ELIGIBLE or CAUTIONED. -/
theorem standing_of_eligible {l : Lane} {e : Entry} (he : l.entry = some e) (h : l.eligible = true) :
    e.standing = .eligible ∨ e.standing = .cautioned := by
  obtain ⟨f, hf, hs⟩ := (eligible_iff l).1 h
  cases he.symm.trans hf
  exact hs

theorem withResult_lawful {e : Entry} {r : Option LaneResult} (h : e.lawful) : Entry.lawful { e with result := r } := h

theorem withdrawn_lawful {e : Entry} (h : e.lawful) (hs : e.standing = .eligible ∨ e.standing = .cautioned) :
    Entry.lawful { e with standing := .withdrawn } := by
  unfold Entry.lawful at h
  rcases hs with hs | hs <;> rw [hs] at h
  · exact .inl h
  · exact .inr h

/-- The charge that IMPOSE CHARGE may lay on an entry keeps its list lawful (R152, R153). -/
theorem imposed_lawful {e : Entry} {n : Nat} {x : Effect} (h : e.lawful) (hw : e.standing ≠ .withdrawn)
    (hd : e.standing ≠ .disqualified) (hx : x = .caution → e.holds .caution = false) :
    (e.charge n x .referee).lawful := by
  refine charge_lawful h ?_
  cases hs : e.standing with
  | eligible => exact .inl rfl
  | cautioned =>
    refine .inr ⟨rfl, ?_⟩
    cases x with
    | disqualify => rfl
    | caution =>
      have hc : e.charges.map Charge.effect = [.caution] := by simpa [Entry.lawful, hs] using h
      obtain ⟨c, hc', hce⟩ := List.map_eq_singleton_iff.1 hc
      have hn := (holds_eq_false_iff e .caution).1 (hx rfl)
      exact absurd hce (hn c (by simp [hc']))
  | disqualified => exact absurd hs hd
  | withdrawn => exact absurd hs hw

/-- What the judgement of a lane makes of its entry. -/
theorem judgeLane_cases {s : State} {i : LaneNo} {f : Entry} (h : (s.judgeLane i s.lanes[i]).entry = some f) :
    s.lanes[i].entry = some f ∨ ∃ e r, s.lanes[i].entry = some e ∧ s.lanes[i].eligible = true ∧
      (f = { e with result := r } ∨ ∃ p w rt, f = Entry.senseCharge p w s.heat.attempt rt { e with result := r }) := by
  rcases judgeLane_entry s i s.lanes[i] with hj | ⟨k, hk, hj | ⟨d, rt, _, _, _, hj⟩⟩
  · exact .inl (hj ▸ h)
  all_goals
    have heligible : s.lanes[i].eligible = true := by rw [← classOf_isSome, hk]; rfl
    rw [hj, changeEntry_entry, Option.map_eq_some_iff] at h
    obtain ⟨e, he, rfl⟩ := h
  · exact .inr ⟨e, _, he, heligible, .inl rfl⟩
  · exact .inr ⟨e, _, he, heligible, .inr ⟨_, _, _, rfl⟩⟩

theorem lawful_of_map {l : Lane} {g : Entry → Entry} {f : Entry} (hf : l.entry.map g = some f)
    (hs : ∀ e, l.entry = some e → e.lawful) (hg : ∀ e, l.entry = some e → e.lawful → (g e).lawful) : f.lawful := by
  obtain ⟨e, he, rfl⟩ := Option.map_eq_some_iff.1 hf
  exact hg e he (hs e he)

theorem laneMove_keeps_lawful {s u : State} {i : LaneNo} (hm : LaneMove s u i)
    (hs : ∀ e, s.lanes[i].entry = some e → e.lawful) (f : Entry) (hf : u.lanes[i].entry = some f) : f.lawful := by
  cases hm
  case kept hl _ _ => exact hs f (hl ▸ hf)
  case resensed hl _ _ => exact hs f (by rw [hl] at hf; simpa using hf)
  case cleared hl _ => rw [hl] at hf; cases hf
  case retired hl _ _ _ | vacated hl _ _ _ => rw [hl] at hf; cases hf
  case entered hl _ _ _ _ _ =>
    rw [hl] at hf
    cases hf
    exact rfl
  case withdrawn hl he _ _ _ =>
    rw [hl, withdraw_entry] at hf
    exact lawful_of_map hf hs fun e h hlaw => withdrawn_lawful hlaw (standing_of_eligible h he)
  case marksCalled hl _ _ _ _ =>
    rw [hl, changeEntry_entry] at hf
    exact lawful_of_map (l := s.lanes[i]) hf hs fun e _ => finalize_lawful
  case setCalled hl _ _ _ => exact hs f (by rw [hl] at hf; split at hf <;> exact hf)
  case stoodUp hl _ _ _ =>
    rw [hl] at hf
    split at hf
    · exact lawful_of_map (l := s.lanes[i]) hf hs fun e _ => withResult_lawful
    · exact hs f hf
  case charged x e hl _ he hw hd hx _ _ =>
    rw [hl, changeEntry_entry] at hf
    refine lawful_of_map hf hs fun e' he' hlaw => ?_
    cases he.symm.trans he'
    exact imposed_lawful hlaw hw hd hx
  case rescinded hl _ _ _ _ _ _ =>
    rw [hl, changeEntry_entry] at hf
    exact lawful_of_map hf hs fun e _ => rescind_lawful
  case gunTaken hl _ _ _ _ => exact hs f (by rw [hl] at hf; simpa using hf)
  case judged hl _ _ _ _ =>
    rw [hl] at hf
    rcases judgeLane_cases hf with he | ⟨e, r, he, heligible, rfl | ⟨p, w, rt, rfl⟩⟩
    · exact hs f (atClose_entry s i ▸ he)
    · exact withResult_lawful (hs e (atClose_entry s i ▸ he))
    · exact senseCharge_lawful (withResult_lawful (hs e (atClose_entry s i ▸ he))) (standing_of_eligible (e := e) he heligible)
  case linkLost hl _ _ _ => exact hs f (by rw [hl] at hf; simpa using hf)
  case delivered hl _ _ _ => exact hs f (by rw [hl] at hf; simpa using hf)

theorem effect_keeps_chargeLaw {s u : State} (hs : s.ChargeLaw) (h : RecordEffect s u) : u.ChargeLaw :=
  fun i e he => laneMove_keeps_lawful (effect_laneMove h i) (hs i) e he

/-! ### The law of closed and unserved lanes (R6, R1) -/

/-- A VACANT lane is OFF, and no sensing field is present (R1). -/
def VacantLawful (l : Lane) : Prop :=
  l.entry = none → l.phase = .off ∧ l.baseline = none ∧ l.onset = none ∧ l.rt = none

theorem vacantLawful_congr {l m : Lane} (h : VacantLawful l) (he : m.entry = l.entry) (hp : m.phase = l.phase)
    (hb : m.baseline = l.baseline) (ho : m.onset = l.onset) (hr : m.rt = l.rt) : VacantLawful m := by
  unfold VacantLawful at h ⊢
  rw [he, hp, hb, ho, hr]
  exact h

theorem vacantLawful_of_entered {m : Lane} (h : m.entry ≠ none) : VacantLawful m := fun he => absurd he h

/-- A lane that is OFF takes a sample by noting its force alone (R89, R91). -/
theorem takeSample_off {l : Lane} (h : l.phase = .off) (c : Settings) (hs : HeatState) (g : Option Stamp) (i : LaneNo)
    (x : Sample) : l.takeSample c hs g i x = (l.noteFresh x, none) := by
  cases hs
  case set => rw [takeSample_set]; simp [h]
  case watch => rw [takeSample_watch, if_pos h]
  all_goals exact takeSample_idle l (by simp) (by simp) c g i x

theorem linkLost_off {l : Lane} (h : l.phase = .off) (hs : HeatState) : l.linkLost hs = (l, none) := by
  unfold Lane.linkLost
  cases hs <;> simp [h]

theorem noteFresh_vacantLawful {l : Lane} (h : VacantLawful l) (x : Sample) : VacantLawful (l.noteFresh x) :=
  vacantLawful_congr h (by simp) (by simp) (by simp) (by simp) (by simp)

/-- A lane not eligible to start, such as a VACANT one, keeps what it is through an attempt. -/
theorem not_eligible_of_vacant {l : Lane} (h : l.entry = none) : l.eligible = false := by
  unfold Lane.eligible
  rw [h]

theorem judgeLane_bib (s : State) (i : LaneNo) (l : Lane) : (s.judgeLane i l).entry.map Entry.bib = l.entry.map Entry.bib := by
  rcases judgeLane_entry s i l with hj | ⟨_, _, hj | ⟨_, _, _, _, _, hj⟩⟩ <;> rw [hj]
  all_goals cases hl : l.entry <;> simp [hl]

/-- A lane is retired, entered, or keeps its bib or its vacancy. -/
theorem laneMove_bib {s u : State} {i : LaneNo} (hm : LaneMove s u i) :
    (u.lanes[i] = Lane.cleared ∨ u.lanes[i] = s.lanes[i].vacate) ∨
      (∃ b, u.lanes[i] = s.lanes[i].enter b ∧ s.lanes[i].entry = none ∧ s.heat.state = .roster ∧
          s.settings.canEnter i = true) ∨
      u.lanes[i].entry.map Entry.bib = s.lanes[i].entry.map Entry.bib := by
  cases hm
  case cleared hl _ => exact .inl (.inl hl)
  case retired hl _ _ _ | vacated hl _ _ _ => exact .inl (.inr hl)
  case entered b hl hv hs hi _ _ => exact .inr (.inl ⟨b, hl, hv, hs, hi⟩)
  all_goals refine .inr (.inr ?_)
  case judged hl _ _ _ _ => rw [hl, judgeLane_bib, atClose_entry]
  case setCalled hl _ _ _ => rw [hl]; split <;> rfl
  case stoodUp hl _ _ _ => rw [hl]; split <;> simp [Function.comp_def]
  case kept hl _ _ => rw [hl]
  case resensed hl _ _ => rw [hl, lane_settingsChange_entry]
  case withdrawn hl _ _ _ _ => simp [hl, Function.comp_def]
  case marksCalled hl _ _ _ _ => simp [hl, Function.comp_def]
  case charged hl _ _ _ _ _ _ _ => simp [hl, Function.comp_def]
  case rescinded hl _ _ _ _ _ _ => simp [hl, Function.comp_def]
  case gunTaken hl _ _ _ _ => rw [hl, gunIndication_entry]
  case linkLost hl _ _ _ => rw [hl, lossIndication_entry]
  case delivered hl _ _ _ => rw [hl, sampleDelivery_entry]

theorem laneMove_keeps_vacantLawful {s u : State} {i : LaneNo} (hm : LaneMove s u i) (hs : VacantLawful s.lanes[i]) :
    VacantLawful u.lanes[i] := by
  by_cases hv : s.lanes[i].entry = none
  · have he : s.lanes[i].eligible = false := not_eligible_of_vacant hv
    obtain ⟨hoff, hbaseline, honset, hrt⟩ := hs hv
    cases hm
    case kept hl _ _ => exact hl ▸ hs
    case resensed hl _ _ => exact hl ▸ vacantLawful_congr hs (by simp) (by simp) (by simp) (by simp) (by simp)
    case cleared hl _ => exact hl ▸ fun _ => ⟨rfl, rfl, rfl, rfl⟩
    case retired hl _ _ _ | vacated hl _ _ _ => exact hl ▸ fun _ => ⟨rfl, rfl, rfl, rfl⟩
    case entered hl _ _ _ _ _ => exact hl ▸ vacantLawful_of_entered (by simp)
    case withdrawn hl he' _ _ _ => exact absurd he' (ne_true_of_eq_false he)
    case marksCalled hl _ _ _ _ => exact hl ▸ fun _ => ⟨rfl, rfl, rfl, rfl⟩
    case setCalled hl _ _ _ | stoodUp hl _ _ _ =>
      rw [if_neg (ne_true_of_eq_false he)] at hl
      exact hl ▸ hs
    case charged he' _ _ _ _ _ | rescinded he' _ _ _ _ => exact absurd (hv.symm.trans he') (by simp)
    case gunTaken hl _ _ _ _ =>
      rw [gunIndication, if_neg (ne_true_of_eq_false he)] at hl
      exact hl ▸ hs
    case judged hl _ _ _ _ =>
      have hclose : (atClose s).lanes[i] = s.lanes[i] := by rw [atClose_lane, if_neg (ne_true_of_eq_false he)]
      have hjudge : (atClose s).judgeLane i (atClose s).lanes[i] = (atClose s).lanes[i] := by
        unfold State.judgeLane
        rw [classOf_not_eligible (hclose ▸ he)]
      exact (hl.trans (hjudge.trans hclose)) ▸ hs
    case linkLost hl _ _ _ =>
      unfold lossIndication at hl
      split at hl
      · exact (hl.trans (by rw [linkLost_off hoff])) ▸ hs
      · exact hl ▸ hs
    case delivered f w hl _ _ _ =>
      unfold sampleDelivery at hl
      split at hl
      · exact hl ▸ hs
      · exact (hl.trans (by rw [takeSample_off hoff])) ▸ noteFresh_vacantLawful hs _
  · rcases laneMove_bib hm with (hl | hl) | ⟨b, hl, _⟩ | hb
    · exact hl ▸ fun _ => ⟨rfl, rfl, rfl, rfl⟩
    · exact hl ▸ fun _ => ⟨rfl, rfl, rfl, rfl⟩
    · exact hl ▸ vacantLawful_of_entered (by simp)
    · refine vacantLawful_of_entered fun hu => hv ?_
      rw [hu] at hb
      exact Option.map_eq_none_iff.1 hb.symm

/-- A setting that may be written in ROSTER closes and opens no lane, and moves no link range (R186). -/
theorem written_roster_keys {k : Key} (hk : k.val < 14) (c : Settings) (v : Nat) (i : LaneNo) :
    (c.written k v).closed i = c.closed i ∧ ∀ l : LinkId, (c.written k v).serves l i = c.serves l i := by
  have hlink : Settings.rangeLink k = none := by
    unfold Settings.rangeLink
    rw [if_neg (by simp [Fin.ext_iff]; omega), if_neg (by simp [Fin.ext_iff]; omega)]
  have hkey : ∀ j : Key, 14 ≤ j.val → (c.written k v).vals[j] = c.vals[j] := by
    intro j hj
    simp only [Settings.written, hlink, Fin.getElem_fin, put_vals]
    exact if_neg fun h => by have := congrArg Fin.val h; simp at this; omega
  have hfirst : ∀ l, (c.written k v).first l = c.first l := by
    rintro (_ | _)
    exacts [hkey 14 (by decide), hkey 16 (by decide)]
  have hlast : ∀ l, (c.written k v).last l = c.last l := by
    rintro (_ | _)
    exacts [hkey 15 (by decide), hkey 17 (by decide)]
  refine ⟨?_, fun l => ?_⟩
  · have h := hkey ⟨30 + i.val, by omega⟩ (by simp; omega)
    simp only [Settings.closed]
    exact congrArg (· == 1) h
  · simp only [Settings.serves, Settings.enabled, hfirst, hlast]

/-- Outside IDLE an effect that does not reset the part leaves every lane closed or open, and served or not, as it was. -/
theorem effect_serves {s u : State} (h : RecordEffect s u) (hs : s.heat.state ≠ .idle) (i : LaneNo) :
    u.lanes[i] = Lane.cleared ∨
      (u.settings.closed i = s.settings.closed i ∧ ∀ l : LinkId, u.settings.serves l i = s.settings.serves l i) := by
  cases h
  case softReset => exact .inl (by simp)
  case fullReset => exact .inl (by simp [State.fullReset])
  case loadProfile hi _ => exact absurd hi hs
  case writeSetting k v hw _ _ =>
    refine .inr ?_
    rw [changeSettings_settings]
    refine written_roster_keys (roster_keys ?_) _ _ i
    simp only [writableIn, Bool.or_eq_true, Bool.and_eq_true, beq_iff_eq] at hw
    exact (hw.resolve_left hs).2
  case gunAcceptance => exact .inr (by simp [State.acceptGun])
  all_goals exact .inr ⟨by simp, by simp⟩

/-- A lane that has an entry after an effect had one, or was entered, which takes a lane that can be. -/
theorem laneMove_entered {s u : State} {i : LaneNo} (hm : LaneMove s u i) (hu : u.lanes[i].entry.isSome = true) :
    s.lanes[i].entry.isSome = true ∨ (s.heat.state = .roster ∧ s.settings.canEnter i = true) := by
  rcases laneMove_bib hm with (hl | hl) | ⟨b, _, _, hr, hc⟩ | hb
  · rw [hl] at hu; cases hu
  · rw [hl] at hu; cases hu
  · exact .inr ⟨hr, hc⟩
  · refine .inl ?_
    have h := congrArg Option.isSome hb
    rw [Option.isSome_map, Option.isSome_map] at h
    exact h ▸ hu

/-- A lane that is in IDLE after an effect was in IDLE before it, or has lost its entry. -/
theorem laneMove_idle {s u : State} {i : LaneNo} (hm : LaneMove s u i) (hu : u.heat.state = .idle) :
    u.lanes[i].entry = none ∨ s.heat.state = .idle := by
  cases hm
  case kept _ _ hq => rcases hq with ⟨_, h⟩ | ⟨_, h⟩ | ⟨_, _, h | h⟩ <;> simp_all
  case cleared hl _ | retired hl _ _ _ | vacated hl _ _ _ => exact .inl (by rw [hl]; rfl)
  case setCalled hh _ | stoodUp hh _ => simp [hh] at hu
  all_goals simp_all

theorem effect_keeps_rosterLaw {s u : State} (hs : s.RosterLaw) (h : RecordEffect s u) : u.RosterLaw where
  served i hu := by
    have hnotidle : s.heat.state ≠ .idle := by
      intro hi
      rcases laneMove_entered (effect_laneMove h i) hu with he | ⟨hr, _⟩
      · rw [hs.idle hi i] at he; cases he
      · simp [hi] at hr
    have hserved : s.settings.closed i = false ∧ ∃ l : LinkId, s.settings.serves l i = true := by
      rcases laneMove_entered (effect_laneMove h i) hu with he | ⟨_, hc⟩
      · exact hs.served i he
      · exact (canEnter_iff _ i).1 hc
    rcases effect_serves h hnotidle i with hl | ⟨hclosed, hserves⟩
    · rw [hl] at hu; cases hu
    · obtain ⟨l, hl⟩ := hserved.2
      exact ⟨hclosed ▸ hserved.1, l, (hserves l).trans hl⟩
  idle hu i := by
    rcases laneMove_idle (effect_laneMove h i) hu with he | hi
    · exact he
    · rw [← Option.not_isSome_iff_eq_none]
      intro he
      rcases laneMove_entered (effect_laneMove h i) he with he | ⟨hr, _⟩
      · rw [hs.idle hi i] at he; cases he
      · simp [hi] at hr
  vacant i := laneMove_keeps_vacantLawful (effect_laneMove h i) (hs.vacant i)

/-! ### The law of the bib index (R9) -/

/-- What an effect makes of the bib index: it stands with every bib, goes with every entry, or gains or loses one bib. -/
theorem effect_index {s u : State} (h : RecordEffect s u) :
    (u.bibIndex = s.bibIndex ∧ ∀ i : LaneNo, u.lanes[i].entry.map Entry.bib = s.lanes[i].entry.map Entry.bib) ∨
      (u.bibIndex = [] ∧ ∀ i : LaneNo, u.lanes[i].entry = none) ∨
      (∃ i b, u = s.enter i b ∧ 1 ≤ b ∧ b ≤ 9999 ∧ indexFind b s.bibIndex = none ∧ s.lanes[i].entry = none) ∨
      ∃ i, u = s.vacateLane i := by
  cases h
  case softReset => exact .inr (.inl ⟨by simp, fun i => by simp [Lane.cleared]⟩)
  case fullReset => exact .inr (.inl ⟨by simp [State.fullReset], fun i => by simp [State.fullReset, Lane.cleared]⟩)
  case closeHeat => exact .inr (.inl ⟨rfl, fun i => by rw [Fin.getElem_fin]; simp [State.retire]⟩)
  case enterLane i b hb _ _ hn hv => exact .inr (.inr (.inl ⟨i, b, rfl, hb.1, hb.2, hn, hv⟩))
  case vacateLane i _ => exact .inr (.inr (.inr ⟨i, rfl⟩))
  all_goals refine .inl ⟨by simp [State.acceptGun], fun i => ?_⟩
  all_goals rw [Fin.getElem_fin]
  case callSet => rw [setField_getElem]; split <;> rfl
  case standUp => rw [standField_getElem]; split <;> simp [Function.comp_def]
  case withdrawLane | imposeCharge | rescindCharge => rw [changeLane_getElem]; split <;> simp [Function.comp_def]
  case gunAcceptance q _ =>
    rcases acceptGun_lane s q i with hl | hl <;> rw [Fin.getElem_fin] at hl <;> rw [hl]
    exact congrArg _ (gunIndication_entry _ _ _ _)
  case closeExpiry => rw [closeAttempt_lanes_atClose, judge_getElem, judgeLane_bib]; exact congrArg _ (atClose_entry s i)
  all_goals simp [Function.comp_def]

/-- The index law speaks of the entries by their bibs. -/
theorem indexLaw_iff (s : State) :
    s.IndexLaw ↔ (s.bibIndex.Pairwise fun p q => p.1 < q.1) ∧ (∀ p ∈ s.bibIndex, 1 ≤ p.1 ∧ p.1 ≤ 9999) ∧
      ∀ (b : Nat) (i : LaneNo), (b, i) ∈ s.bibIndex ↔ s.lanes[i].entry.map Entry.bib = some b := by
  simp only [Option.map_eq_some_iff]
  exact ⟨fun ⟨h, k, l⟩ => ⟨h, k, l⟩, fun ⟨h, k, l⟩ => ⟨h, k, l⟩⟩

theorem enter_keeps_indexLaw {s : State} {i : LaneNo} {b : Nat} (hs : s.IndexLaw) (h1 : 1 ≤ b) (h2 : b ≤ 9999)
    (hn : indexFind b s.bibIndex = none) (hv : s.lanes[i].entry = none) : (s.enter i b).IndexLaw := by
  rw [indexLaw_iff] at hs ⊢
  obtain ⟨hsorted, hrange, hexact⟩ := hs
  have hfree := (indexFind_none b s.bibIndex).1 hn
  rw [enter_bibIndex]
  refine ⟨indexInsert_sorted b i _ hsorted hfree, fun p hp => ?_, fun c j => ?_⟩
  · rcases (mem_indexInsert b i _ p).1 hp with rfl | hp
    · exact ⟨h1, h2⟩
    · exact hrange p hp
  · rw [mem_indexInsert, enter_lane, hexact]
    by_cases hj : j = i
    · subst hj
      rw [hv, if_pos rfl, enter_entry]
      simp [eq_comm]
    · simp [hj]

theorem vacateLane_keeps_indexLaw {s : State} (i : LaneNo) (hs : s.IndexLaw) : (s.vacateLane i).IndexLaw := by
  rw [indexLaw_iff] at hs ⊢
  obtain ⟨hsorted, hrange, hexact⟩ := hs
  have hindex : (s.vacateLane i).bibIndex = s.bibIndex.filter fun p => p.2 != i := rfl
  have hlane : ∀ j : LaneNo, (s.vacateLane i).lanes[j] = if j = i then s.lanes[j].vacate else s.lanes[j] :=
    fun j => changeLane_lane s i j Lane.vacate
  rw [hindex]
  refine ⟨hsorted.filter _, fun p hp => hrange p (List.mem_filter.1 hp).1, fun c j => ?_⟩
  rw [List.mem_filter, hlane, hexact]
  by_cases hj : j = i <;> simp [hj]

theorem effect_keeps_indexLaw {s u : State} (hs : s.IndexLaw) (h : RecordEffect s u) : u.IndexLaw := by
  rcases effect_index h with ⟨hi, hl⟩ | ⟨hi, hl⟩ | ⟨i, b, rfl, h1, h2, hn, hv⟩ | ⟨i, rfl⟩
  · rw [indexLaw_iff] at hs ⊢
    rw [hi]
    exact ⟨hs.1, hs.2.1, fun b i => by rw [hl i]; exact hs.2.2 b i⟩
  · rw [indexLaw_iff, hi]
    exact ⟨.nil, by simp, fun b i => by rw [hl i]; simp⟩
  · exact enter_keeps_indexLaw hs h1 h2 hn hv
  · exact vacateLane_keeps_indexLaw i hs

/-! ### Every step -/

theorem sameRecords_rosterLaw {u t : State} (h : SameRecords u t) (hu : u.RosterLaw) : t.RosterLaw := by
  obtain ⟨_, _, _, _, _, _, _, _, _, rfl⟩ := h
  exact ⟨hu.served, hu.idle, hu.vacant⟩

theorem sameRecords_indexLaw {u t : State} (h : SameRecords u t) (hu : u.IndexLaw) : t.IndexLaw := by
  obtain ⟨_, _, _, _, _, _, _, _, _, rfl⟩ := h
  exact ⟨hu.sorted, hu.range, hu.exact⟩

/-- Settles O53: every effect on the records keeps each of the three laws, which read nothing else. -/
theorem rosterLawsKept : Obligations.RosterLawsKept := by
  unfold Obligations.RosterLawsKept
  intro s t h
  refine ⟨fun hs => ?_, fun hs => ?_, fun hs => ?_⟩
  · exact step_keeps_law (fun _ _ ⟨_, _, _, _, _, _, _, _, _, ht⟩ hu => ht ▸ hu) (fun _ _ hs => hs)
      (fun _ _ => effect_keeps_chargeLaw) hs h
  · exact step_keeps_law (fun _ _ => sameRecords_indexLaw) (fun _ _ hs => ⟨hs.sorted, hs.range, hs.exact⟩)
      (fun _ _ => effect_keeps_indexLaw) hs h
  · exact step_keeps_law (fun _ _ => sameRecords_rosterLaw) (fun _ _ hs => ⟨hs.served, hs.idle, hs.vacant⟩)
      (fun _ _ => effect_keeps_rosterLaw) hs h

end Sys2Proof.Proofs
end

section
/-! PROOFS. The law of finality (R161): what each move of the heat record and each change of an entry make of it; that a final
charge entry and a final warning stay, and the statement O58 assembled from these. -/

namespace Sys2Proof.Proofs

open Sys2Proof.Machine Sys2Proof.Laws

/-! ### One entry or warning, as the heat moves -/

theorem not_early_of_finalityAt {h : Heat} {n : Nat} {f : Bool} (hf : finalityAt h n f) : ¬ h.state.early := hf.2.2.1

/-- The attempt goes on or has ended: what was final or not stays so. -/
theorem finalityAt_within {h k : Heat} {n : Nat} {f : Bool} (hf : finalityAt h n f) (ha : k.attempt = h.attempt)
    (he : ¬ k.state.early) (hi : k.state.inAttempt → h.state.inAttempt) : finalityAt k n f := by
  obtain ⟨h1, h2, _, h4, h5⟩ := hf
  rw [← ha] at h2 h4 h5
  exact ⟨h1, h2, he, fun hk => h4 (hi hk), h5⟩

/-- The entry to MARKS makes everything of the heat so far final (R160). -/
theorem finalityAt_marks {h k : Heat} {n : Nat} {f : Bool} (hf : finalityAt h n f) (ha : k.attempt = h.attempt + 1)
    (hk : k.state = .marks) : finalityAt k n true := by
  obtain ⟨h1, h2, _, _, _⟩ := hf
  have hlt : n < k.attempt := by omega
  exact ⟨h1, hlt.le, by simp [hk, HeatState.early], fun _ => hlt, by simp [hlt]⟩

/-- What an attempt that has ended makes is not final (R161). -/
theorem finalityAt_current {h : Heat} (hz : 1 ≤ h.attempt) (he : ¬ h.state.early) (hi : ¬ h.state.inAttempt) :
    finalityAt h h.attempt false :=
  ⟨hz, le_refl _, he, fun hk => absurd hk hi, by simp⟩

theorem finalityAt_quiet {s u : State} {n : Nat} {f : Bool} (hq : Quiet s u) (hf : finalityAt s.heat n f) :
    finalityAt u.heat n f := by
  have he := not_early_of_finalityAt hf
  rcases hq with ⟨ha, hs⟩ | ⟨hi, _⟩ | ⟨ha, hr, hu⟩
  · exact finalityAt_within hf ha (hs ▸ he) (hs ▸ id)
  · exact absurd (.inl hi) he
  · refine finalityAt_within hf ha ?_ ?_ <;> rcases hu with hu | hu <;> simp [hu, HeatState.early, HeatState.inAttempt]

/-! ### The charges of one lane -/

/-- R161, for the charge entries of one lane. -/
def ChargesFinal (h : Heat) (l : Lane) : Prop :=
  ∀ e, l.entry = some e → ∀ c ∈ e.charges, finalityAt h c.attempt c.final

theorem chargesFinal_of_absent {h : Heat} {l : Lane} (hl : l.entry = none) : ChargesFinal h l := by
  intro e he
  rw [hl] at he
  cases he

/-- The entry changes in a way that keeps its charges or drops some of them, and the heat's law of finality carries over. -/
theorem chargesFinal_of_map {h k : Heat} {l m : Lane} {g : Entry → Entry} (hl : ChargesFinal h l)
    (hm : m.entry = l.entry.map g) (hg : ∀ e, ∀ c ∈ (g e).charges, c ∈ e.charges)
    (hk : ∀ n f, finalityAt h n f → finalityAt k n f) : ChargesFinal k m := by
  intro f hf c hc
  rw [hm, Option.map_eq_some_iff] at hf
  obtain ⟨e, he, rfl⟩ := hf
  exact hk _ _ (hl e he c (hg e c hc))

theorem chargesFinal_congr {h k : Heat} {l m : Lane} (hl : ChargesFinal h l) (hm : m.entry = l.entry)
    (hk : ∀ n f, finalityAt h n f → finalityAt k n f) : ChargesFinal k m :=
  chargesFinal_of_map (g := id) hl (by simp [hm]) (fun _ _ hc => hc) hk

/-- A charge of the attempt that has just ended joins the list. -/
theorem chargesFinal_charged {k : Heat} {e : Entry} {n : Nat} {x : Effect} {a : ChargeCause}
    (he : ∀ c ∈ e.charges, finalityAt k c.attempt c.final) (hn : finalityAt k n false) (c : Charge)
    (hc : c ∈ (e.charge n x a).charges) : finalityAt k c.attempt c.final := by
  rw [charge_charges, List.mem_append, List.mem_singleton] at hc
  rcases hc with hc | rfl
  · exact he c hc
  · exact hn

theorem senseCharge_charges_final {k : Heat} {e : Entry} {p : Policy} {w : Bool} {n : Nat} {rt : Int}
    (he : ∀ c ∈ e.charges, finalityAt k c.attempt c.final) (hn : finalityAt k n false) (c : Charge)
    (hc : c ∈ (e.senseCharge p w n rt).charges) : finalityAt k c.attempt c.final := by
  rcases senseCharge_cases e p w n rt with h | ⟨x, _, h⟩ <;> rw [h] at hc
  · exact he c hc
  · exact chargesFinal_charged he hn c hc

theorem attempt_pos {s : State} (hs : s.HeatLaw) (he : ¬ s.heat.state.early) : 1 ≤ s.heat.attempt :=
  Nat.one_le_iff_ne_zero.2 fun h => he (hs.attemptZero.1 h)

theorem not_early_of_review {h : HeatState} (hr : reviewState h = true) : ¬ h.early ∧ ¬ h.inAttempt := by
  rcases (reviewState_iff h).1 hr with rfl | rfl | rfl <;> simp [HeatState.early, HeatState.inAttempt]

theorem laneMove_keeps_chargesFinal {s u : State} {i : LaneNo} (hlaw : s.HeatLaw) (hm : LaneMove s u i)
    (hs : ChargesFinal s.heat s.lanes[i]) : ChargesFinal u.heat u.lanes[i] := by
  have hsame : ∀ {h : Heat}, h.attempt = s.heat.attempt → h.state = s.heat.state → ∀ n f, finalityAt s.heat n f →
      finalityAt h n f :=
    fun ha hst n f hf => finalityAt_within hf ha (hst ▸ not_early_of_finalityAt hf) (hst ▸ id)
  cases hm
  case kept hl _ hq => exact chargesFinal_congr hs (by rw [hl]) fun n f => finalityAt_quiet hq
  case resensed hl _ hh => exact chargesFinal_congr hs (by rw [hl]; simp) (hsame (by rw [hh]) (by rw [hh]))
  case cleared hl _ => exact chargesFinal_of_absent (by rw [hl]; rfl)
  case retired hl _ _ _ | vacated hl _ _ _ => exact chargesFinal_of_absent (by rw [hl]; rfl)
  case entered b hl _ _ _ _ _ =>
    intro e he
    rw [hl, enter_entry] at he
    cases he
    simp
  case withdrawn hl _ _ hh _ =>
    exact chargesFinal_of_map (g := fun e => { e with standing := .withdrawn }) hs (hl ▸ withdraw_entry _)
      (fun _ _ hc => hc) (hsame (by rw [hh]) (by rw [hh]))
  case marksCalled hl _ hu ha _ =>
    intro f hf c hc
    rw [hl, changeEntry_entry, Option.map_eq_some_iff] at hf
    obtain ⟨e, he, rfl⟩ := hf
    rw [finalize_charges, List.mem_map] at hc
    obtain ⟨b, hb, rfl⟩ := hc
    exact finalityAt_marks (hs e he b hb) ha hu
  case setCalled hl hmarks hh _ =>
    refine chargesFinal_congr hs (by rw [hl]; split <;> rfl) fun n f hf => finalityAt_within hf (by rw [hh]) ?_ ?_
    · simp [hh, HeatState.early]
    · simp [hmarks, HeatState.inAttempt]
  case stoodUp hl _ hh _ =>
    have hmap : u.lanes[i].entry = s.lanes[i].entry.map fun e =>
        if s.lanes[i].eligible then { e with result := some ⟨.notStarted, false⟩ } else e := by
      rw [hl]
      split <;> simp
    refine chargesFinal_of_map hs hmap ?_ fun n f hf => finalityAt_within hf (by rw [hh]) ?_ ?_
    · intro e c hc
      split at hc <;> exact hc
    · simp [hh, HeatState.early]
    · simp [hh, HeatState.inAttempt]
  case charged x e hl hr _ _ _ _ hh _ =>
    intro f hf c hc
    rw [hl, changeEntry_entry, Option.map_eq_some_iff] at hf
    obtain ⟨e', he', rfl⟩ := hf
    obtain ⟨hearly, hin⟩ := not_early_of_review hr
    rw [hh]
    exact chargesFinal_charged (hs e' he') (finalityAt_current (attempt_pos hlaw hearly) hearly hin) c hc
  case rescinded hl _ _ _ _ hh _ =>
    refine chargesFinal_of_map hs (by rw [hl, changeEntry_entry]) (fun e c hc => ?_) (hsame (by rw [hh]) (by rw [hh]))
    exact List.mem_of_mem_dropLast hc
  case gunTaken hl hset hu ha _ =>
    refine chargesFinal_congr hs (by rw [hl, gunIndication_entry]) fun n f hf => finalityAt_within hf ha ?_ ?_
    · simp [hu, HeatState.early]
    · simp [hset, HeatState.inAttempt]
  case judged hl hw hu ha _ =>
    have hearly : ¬ u.heat.state.early := by rcases hu with hu | hu | hu <;> simp [hu, HeatState.early]
    have hin : ¬ u.heat.state.inAttempt := by rcases hu with hu | hu | hu <;> simp [hu, HeatState.inAttempt]
    have hpos : 1 ≤ u.heat.attempt := ha ▸ attempt_pos hlaw (by simp [hw, HeatState.early])
    have hnew : finalityAt u.heat s.heat.attempt false := ha ▸ finalityAt_current hpos hearly hin
    have hnew' : finalityAt u.heat (atClose s).heat.attempt false := by rw [atClose_heat]; exact hnew
    have hold : ∀ e, (atClose s).lanes[i].entry = some e → ∀ c ∈ e.charges, finalityAt u.heat c.attempt c.final :=
      fun e he c hc => finalityAt_within (hs e (atClose_entry s i ▸ he) c hc) ha hearly fun hk => absurd hk hin
    intro f hf c hc
    rw [hl] at hf
    rcases judgeLane_cases hf with he | ⟨e, r, he, _, rfl | ⟨p, w, rt, rfl⟩⟩
    · exact hold f he c hc
    · exact hold e he c hc
    · exact senseCharge_charges_final (e := { e with result := r }) (hold e he) hnew' c hc
  case linkLost hl hu ha _ => exact chargesFinal_congr hs (by rw [hl, lossIndication_entry]) (hsame ha hu)
  case delivered hl hu ha _ => exact chargesFinal_congr hs (by rw [hl, sampleDelivery_entry]) (hsame ha hu)

/-! ### The field warning -/

theorem warningAfter_of_some {s : State} {w : FieldWarning} (h : s.heat.warning = some w) : s.warningAfter = some w := by
  unfold State.warningAfter
  rw [h]

theorem heatMove_keeps_warningFinal {s u : State} (hlaw : s.HeatLaw) (hm : HeatMove s u)
    (hs : ∀ w, s.heat.warning = some w → finalityAt s.heat w.attempt w.final) (w : FieldWarning)
    (hw : u.heat.warning = some w) : finalityAt u.heat w.attempt w.final := by
  cases hm
  case same hh _ => rw [hh] at hw ⊢; exact hs w hw
  case cleared hh _ | opened hh _ | warningRescinded hh _ => rw [hh] at hw; cases hw
  case marksCalled hh _ =>
    rw [hh, Option.map_eq_some_iff] at hw
    obtain ⟨v, hv, rfl⟩ := hw
    exact finalityAt_marks (hs v hv) (by rw [hh]) (by rw [hh])
  case closed h hh _ =>
    have hstate := closeAttempt_state s
    rw [hh] at hw ⊢
    rw [closeAttempt_warning_atClose] at hw
    have ha := closeAttempt_attempt s
    have hearly : ¬ s.closeAttempt.heat.state.early := by rcases hstate with h | h | h <;> simp [h, HeatState.early]
    have hin : ¬ s.closeAttempt.heat.state.inAttempt := by rcases hstate with h | h | h <;> simp [h, HeatState.inAttempt]
    rcases warningAfter_cases hw with hold | ⟨_, _, rfl⟩
    · rw [atClose_heat] at hold
      exact finalityAt_within (hs w hold) ha hearly fun hk => absurd hk hin
    · have hpos : 1 ≤ s.heat.attempt := attempt_pos hlaw (by simp [h, HeatState.early])
      rw [atClose_heat]
      exact ha ▸ finalityAt_current (ha.symm ▸ hpos) hearly hin
  case setCalled h hh _ =>
    rw [hh] at hw ⊢
    exact finalityAt_within (hs w hw) rfl (by simp [HeatState.early]) (by simp [h, HeatState.inAttempt])
  case gunTaken h hh _ =>
    rw [hh] at hw ⊢
    exact finalityAt_within (hs w hw) rfl (by simp [HeatState.early]) (by simp [h, HeatState.inAttempt])
  case recalled hh _ | pulseEnded hh _ => rw [hh] at hw ⊢; exact hs w hw
  case stoodUp hh _ | recalledRunning hh _ | deadlinePassed hh _ =>
    rw [hh] at hw ⊢
    exact finalityAt_within (hs w hw) rfl (by simp [HeatState.early]) (by simp [HeatState.inAttempt])

theorem finalityLaw_iff (s : State) :
    s.FinalityLaw ↔ (∀ i : LaneNo, ChargesFinal s.heat s.lanes[i]) ∧
      ∀ w, s.heat.warning = some w → finalityAt s.heat w.attempt w.final :=
  ⟨fun h => ⟨h.charges, h.warning⟩, fun ⟨h, k⟩ => ⟨h, k⟩⟩

theorem effect_keeps_finalityLaw {s u : State} (hlaw : s.HeatLaw) (hs : s.FinalityLaw) (h : RecordEffect s u) :
    u.FinalityLaw := by
  rw [finalityLaw_iff] at hs ⊢
  exact ⟨fun i => laneMove_keeps_chargesFinal hlaw (effect_laneMove h i) (hs.1 i),
    heatMove_keeps_warningFinal hlaw (effect_heatMove h) hs.2⟩

/-! ### What is final stays -/

theorem mem_of_getLast?_ne {l : List Charge} {b c : Charge} (hl : l.getLast? = some b) (hc : c ∈ l) (hne : c ≠ b) :
    c ∈ l.dropLast := by
  rw [List.getLast?_eq_some_iff] at hl
  obtain ⟨older, rfl⟩ := hl
  rw [List.dropLast_concat]
  exact (List.mem_append.1 hc).resolve_right (by simpa using hne)

theorem mem_senseCharge {e : Entry} {r : Option LaneResult} {p : Policy} {w : Bool} {n : Nat} {rt : Int} {c : Charge}
    (hc : c ∈ e.charges) : c ∈ (Entry.senseCharge p w n rt { e with result := r }).charges := by
  rcases senseCharge_cases { e with result := r } p w n rt with h | ⟨x, _, h⟩ <;> rw [h]
  · exact hc
  · rw [charge_charges]
    exact List.mem_append_left _ hc

/-- A final charge entry is in its lane's list after an effect that does not leave the heat in IDLE. -/
theorem laneMove_keeps_final {s u : State} {i : LaneNo} (hm : LaneMove s u i) (hu : u.heat.state ≠ .idle)
    (hs : ChargesFinal s.heat s.lanes[i]) {e : Entry} {c : Charge} (he : s.lanes[i].entry = some e) (hc : c ∈ e.charges)
    (hf : c.final = true) : ∃ f, u.lanes[i].entry = some f ∧ c ∈ f.charges := by
  have hearly := not_early_of_finalityAt (hs e he c hc)
  have hmap : ∀ g : Entry → Entry, u.lanes[i].entry = s.lanes[i].entry.map g → c ∈ (g e).charges →
      ∃ f, u.lanes[i].entry = some f ∧ c ∈ f.charges :=
    fun g hg hin => ⟨g e, by rw [hg, he]; rfl, hin⟩
  cases hm
  case kept hl _ _ => exact hmap id (by rw [hl]; simp) hc
  case resensed hl _ _ => exact hmap id (by rw [hl]; simp) hc
  case cleared hl hh => exact absurd (by rw [hh]; rfl) hu
  case retired hidle _ _ => exact absurd hidle hu
  case vacated hr _ _ | entered hr _ _ _ => exact absurd (.inr hr) hearly
  case withdrawn hl _ _ _ _ => exact hmap _ (by rw [hl, withdraw_entry]) hc
  case marksCalled hl _ _ _ _ =>
    refine hmap Entry.finalize (by rw [hl, changeEntry_entry]; rfl) ?_
    rw [finalize_charges, List.mem_map]
    refine ⟨c, hc, ?_⟩
    obtain ⟨⟩ := c
    simp only at hf
    rw [hf]
  case setCalled hl _ _ _ => exact hmap id (by rw [hl]; split <;> simp [Lane.attemptSet]) hc
  case stoodUp hl _ _ _ =>
    rw [hl]
    split
    · exact ⟨_, (changeEntry_entry _ _).trans (congrArg (Option.map _) he), hc⟩
    · exact ⟨e, he, hc⟩
  case charged hl _ _ _ _ _ _ _ =>
    exact hmap _ (by rw [hl, changeEntry_entry]) (by rw [charge_charges]; exact List.mem_append_left _ hc)
  case rescinded e' b hl _ he' hlast hnot _ _ =>
    cases he.symm.trans he'
    refine hmap _ (by rw [hl, changeEntry_entry]) ?_
    rw [rescind_charges]
    refine mem_of_getLast?_ne hlast hc ?_
    rintro rfl
    exact absurd hf (ne_true_of_eq_false hnot)
  case gunTaken hl _ _ _ _ => exact hmap id (by rw [hl, gunIndication_entry]; simp) hc
  case judged hl _ _ _ _ =>
    have hclose : (atClose s).lanes[i].entry = some e := (atClose_entry s i).trans he
    rw [hl]
    rcases judgeLane_entry (atClose s) i (atClose s).lanes[i] with hj | ⟨_, _, hj | ⟨_, _, _, _, _, hj⟩⟩ <;> rw [hj]
    · exact ⟨e, hclose, hc⟩
    · exact ⟨_, (changeEntry_entry _ _).trans (congrArg (Option.map _) hclose), hc⟩
    · exact ⟨_, (changeEntry_entry _ _).trans (congrArg (Option.map _) hclose), mem_senseCharge hc⟩
  case linkLost hl _ _ _ => exact hmap id (by rw [hl, lossIndication_entry]; simp) hc
  case delivered hl _ _ _ => exact hmap id (by rw [hl, sampleDelivery_entry]; simp) hc

theorem heatMove_keeps_finalWarning {s u : State} (hm : HeatMove s u) (hu : u.heat.state ≠ .idle) {w : FieldWarning}
    (hearly : ¬ s.heat.state.early) (hw : s.heat.warning = some w) (hf : w.final = true) : u.heat.warning = some w := by
  cases hm
  case cleared hh _ => exact absurd (by rw [hh]; rfl) hu
  case opened hi _ _ _ _ => exact absurd (.inl hi) hearly
  case marksCalled hh _ =>
    obtain ⟨⟩ := w
    simp only at hf
    rw [hh, hw, hf]
    rfl
  case closed hh _ =>
    rw [hh, closeAttempt_warning_atClose]
    exact warningAfter_of_some (by rw [atClose_heat]; exact hw)
  case warningRescinded hw' hnot _ _ =>
    cases hw.symm.trans hw'
    exact absurd hf (ne_true_of_eq_false hnot)
  case same hh _ | setCalled hh _ | stoodUp hh _ | gunTaken hh _ | recalled hh _ | recalledRunning hh _ |
      deadlinePassed hh _ | pulseEnded hh _ => rw [hh]; exact hw

theorem sameRecords_lanes {u t : State} (h : SameRecords u t) : t.lanes = u.lanes := by
  obtain ⟨_, _, _, _, _, _, _, _, _, rfl⟩ := h
  rfl

/-- Settles O58: an effect takes no final charge entry from a list and no final warning from the heat record, and a step is an
effect or the passing of a unit of time. -/
theorem finalEntriesStay : Obligations.FinalEntriesStay := by
  unfold Obligations.FinalEntriesStay
  intro s t _ hs h ht
  rcases step_effect h with ⟨v, u, hv, hu, hsame⟩ | ⟨_, rfl⟩
  · rw [sameRecords_heat hsame] at ht ⊢
    rw [sameRecords_lanes hsame, ← sameRecords_lanes hv]
    rw [finalityLaw_iff, ← sameRecords_heat hv, ← sameRecords_lanes hv] at hs
    rw [← sameRecords_heat hv]
    refine ⟨fun i e c he hc hf => laneMove_keeps_final (effect_laneMove hu i) ht (hs.1 i) he hc hf, fun w hw hf => ?_⟩
    exact heatMove_keeps_finalWarning (effect_heatMove hu) ht (not_early_of_finalityAt (hs.2 w hw)) hw hf
  · rw [passUnit_lanes, passUnit_heat]
    exact ⟨fun i e c he hc _ => ⟨e, he, hc⟩, fun w hw _ => hw⟩

end Sys2Proof.Proofs
end

section
/-! PROOFS. The law of the lane phases (Table 6-2) and of the recalls that false lanes bring: what each effect makes of the phases
of one lane, and what an effect that leaves the heat in WATCH reports; the statement O54 assembled from these. -/

namespace Sys2Proof.Proofs

open Sys2Proof.Machine Sys2Proof.Laws

/-! ### Phases before and in MARKS (R30, R107) -/

theorem lossIndication_off {l : Lane} (h : l.phase = .off) (c : Settings) (hs : HeatState) (k : LinkId) (i : LaneNo) :
    lossIndication c hs k i l = (l, none) := by
  unfold lossIndication
  split
  · exact linkLost_off h hs
  · rfl

/-- A lane that is OFF is left by a frame as it was, but for the last fresh force. -/
theorem sampleDelivery_off {l : Lane} (h : l.phase = .off) (s : State) (k : LinkId) (f : FrameInProgress)
    (w : Vector (BitVec 40) 6) (i : LaneNo) : ∃ x, (sampleDelivery s k f w i l).1 = { l with lastForce := x } := by
  unfold sampleDelivery
  split
  · exact ⟨l.lastForce, rfl⟩
  · rw [takeSample_off h]
    unfold Lane.noteFresh
    split
    · exact ⟨l.lastForce, rfl⟩
    · exact ⟨_, rfl⟩

/-- The states in which every lane is OFF (Table 6-2). -/
def AllOff (h : HeatState) : Prop := h.early ∨ h = .marks

theorem quiet_allOff {s u : State} (hq : Quiet s u) (hu : AllOff u.heat.state) : AllOff s.heat.state := by
  rcases hq with ⟨_, h⟩ | ⟨h, _⟩ | ⟨_, _, h | h⟩
  · exact h ▸ hu
  · exact .inl (.inl h)
  all_goals rw [h] at hu; simp [AllOff, HeatState.early] at hu

theorem laneMove_off {s u : State} {i : LaneNo} (hm : LaneMove s u i) (hs : AllOff s.heat.state → s.lanes[i].phase = .off)
    (hu : AllOff u.heat.state) : u.lanes[i].phase = .off := by
  have hno : ∀ {h : HeatState}, reviewState h = true → ¬ AllOff h := fun {h} hr => by
    rcases (reviewState_iff h).1 hr with rfl | rfl | rfl <;> simp [AllOff, HeatState.early]
  cases hm
  case kept hl _ hq => rw [hl]; exact hs (quiet_allOff hq hu)
  case resensed hl hearly _ => rw [hl, lane_settingsChange_phase]; exact hs (.inl hearly)
  case cleared hl _ | retired hl _ _ _ | vacated hl _ _ _ => rw [hl]; rfl
  case entered hl _ _ _ _ _ => rw [hl]; rfl
  case withdrawn hl _ _ _ _ => rw [hl]; rfl
  case marksCalled hl _ _ _ _ => rw [hl]; rfl
  case setCalled hh _ | stoodUp hh _ => rw [hh] at hu; simp [AllOff, HeatState.early] at hu
  case charged hr _ _ _ _ hh _ => exact absurd (hh ▸ hu) (hno hr)
  case rescinded hr _ _ _ hh _ => exact absurd (hh ▸ hu) (hno hr)
  case gunTaken hw _ _ => rw [hw] at hu; simp [AllOff, HeatState.early] at hu
  case judged hw _ _ => rcases hw with hw | hw | hw <;> rw [hw] at hu <;> simp [AllOff, HeatState.early] at hu
  case linkLost hl hst _ _ =>
    have hoff := hs (hst ▸ hu)
    rw [hl, lossIndication_off hoff]
    exact hoff
  case delivered k f w hl hst _ _ =>
    have hoff := hs (hst ▸ hu)
    obtain ⟨x, hx⟩ := sampleDelivery_off hoff s k f w i
    rw [hl, hx]
    exact hoff

/-- No sensing field is present. -/
def SensingAbsent (l : Lane) : Prop := l.baseline = none ∧ l.onset = none ∧ l.rt = none

theorem quiet_marks {s u : State} (hq : Quiet s u) (hu : u.heat.state = .marks) : s.heat.state = .marks := by
  rcases hq with ⟨_, h⟩ | ⟨_, h⟩ | ⟨_, _, h | h⟩
  · exact h.symm.trans hu
  all_goals simp [h] at hu

theorem laneMove_cleared {s u : State} {i : LaneNo} (hm : LaneMove s u i)
    (hs : s.heat.state = .marks → s.lanes[i].phase = .off ∧ SensingAbsent s.lanes[i]) (hu : u.heat.state = .marks) :
    SensingAbsent u.lanes[i] := by
  cases hm
  case kept hl _ hq => rw [hl]; exact (hs (quiet_marks hq hu)).2
  case resensed hearly hh => rw [hh] at hu; simp [hu, HeatState.early] at hearly
  case cleared hl _ | retired hl _ _ _ | vacated hl _ _ _ => rw [hl]; exact ⟨rfl, rfl, rfl⟩
  case entered hl _ _ _ _ _ => rw [hl]; exact ⟨rfl, rfl, rfl⟩
  case withdrawn hl _ _ hh _ => rw [hl]; exact (hs (hh ▸ hu)).2
  case marksCalled hl _ _ _ _ => rw [hl]; exact ⟨rfl, rfl, rfl⟩
  case setCalled hh _ | stoodUp hh _ => simp [hh] at hu
  case charged hr _ _ _ _ hh _ => rw [hh] at hu; simp [hu, reviewState] at hr
  case rescinded hr _ _ _ hh _ => rw [hh] at hu; simp [hu, reviewState] at hr
  case gunTaken hw _ _ => simp [hw] at hu
  case judged hw _ _ => rcases hw with hw | hw | hw <;> simp [hw] at hu
  case linkLost hl hst _ _ =>
    obtain ⟨hoff, habsent⟩ := hs (hst ▸ hu)
    rw [hl, lossIndication_off hoff]
    exact habsent
  case delivered k f w hl hst _ _ =>
    obtain ⟨hoff, habsent⟩ := hs (hst ▸ hu)
    obtain ⟨x, hx⟩ := sampleDelivery_off hoff s k f w i
    rw [hl, hx]
    exact habsent

/-! ### Phases in SET -/

theorem setLawful_lossIndication {c : Settings} {k : LinkId} {i : LaneNo} {l : Lane} (h : l.setLawful) :
    (lossIndication c .set k i l).1.setLawful := by
  unfold lossIndication
  split
  · exact setLawful_linkLost h
  · exact h

theorem setLawful_sampleDelivery {s : State} {k : LinkId} {f : FrameInProgress} {w : Vector (BitVec 40) 6} {i : LaneNo}
    {l : Lane} (hs : s.heat.state = .set) (h : l.setLawful) : (sampleDelivery s k f w i l).1.setLawful := by
  unfold sampleDelivery
  split
  · exact h
  · rw [hs]
    exact setLawful_takeSample h

/-- The lanes eligible to start begin settling at the entry to SET, with no baseline; the others stay OFF (R31). -/
theorem setLawful_of_marks {l : Lane} (hoff : l.phase = .off) (h : SensingAbsent l) :
    (if l.eligible then l.attemptSet else l).setLawful := by
  obtain ⟨hbaseline, _, hrt⟩ := h
  by_cases he : l.eligible = true
  · rw [if_pos he]
    refine setLawful_of_phase he rfl hrt (.inl ⟨rfl, ?_⟩)
    simp [Lane.detecting, Lane.level?, Lane.attemptSet, hbaseline]
  · rw [if_neg he]
    exact ⟨hrt, by rw [if_neg he]; exact hoff⟩

theorem laneMove_setLawful {s u : State} {i : LaneNo} (hm : LaneMove s u i)
    (hmarks : s.heat.state = .marks → s.lanes[i].phase = .off ∧ SensingAbsent s.lanes[i])
    (hs : s.heat.state = .set → s.lanes[i].setLawful) (hu : u.heat.state = .set) : u.lanes[i].setLawful := by
  cases hm
  case kept hl _ hq =>
    rw [hl]
    rcases hq with ⟨_, h⟩ | ⟨_, h⟩ | ⟨_, _, h | h⟩
    · exact hs (h ▸ hu)
    all_goals simp [h] at hu
  case resensed hearly hh => rw [hh] at hu; simp [hu, HeatState.early] at hearly
  case cleared hh => simp [hh, Heat.cleared] at hu
  case setCalled hl hst _ _ =>
    obtain ⟨hoff, habsent⟩ := hmarks hst
    exact hl ▸ setLawful_of_marks hoff habsent
  case withdrawn hst hh _ => rw [hh] at hu; exact absurd hu hst.2.1
  case stoodUp hh _ => simp [hh] at hu
  case charged hr _ _ _ _ hh _ => rw [hh] at hu; simp [hu, reviewState] at hr
  case rescinded hr _ _ _ hh _ => rw [hh] at hu; simp [hu, reviewState] at hr
  case judged hw _ _ => rcases hw with hw | hw | hw <;> simp [hw] at hu
  case linkLost hl hst _ _ =>
    have hset := hst.symm.trans hu
    rw [hl, hset]
    exact setLawful_lossIndication (hs hset)
  case delivered hl hst _ _ =>
    have hset := hst.symm.trans hu
    rw [hl]
    exact setLawful_sampleDelivery hset (hs hset)
  all_goals simp_all

/-! ### WATCH: phases, and the false lanes that the reports tell of -/

/-- A lane's change in WATCH, with its report: the phase stays lawful, and the lane is false after it exactly when it was, or
when it reports a false onset. -/
structure WatchChange (c : Settings) (l m : Lane) (r : Option LaneReport) : Prop where
  lawful : m.watchLawful
  false_iff : JudgedFalse c m ↔ JudgedFalse c l ∨ r = some .falseOnset

theorem watchChange_refl {c : Settings} {l : Lane} (h : l.watchLawful) : WatchChange c l l none := ⟨h, by simp⟩

theorem watchChange_lossIndication {c : Settings} {k : LinkId} {i : LaneNo} {l : Lane} (h : l.watchLawful) :
    WatchChange c l (lossIndication c .watch k i l).1 (lossIndication c .watch k i l).2 := by
  unfold lossIndication
  split
  · obtain ⟨hlaw, hfalse, hreport⟩ := watchLawful_linkLost (c := c) h
    exact ⟨hlaw, by simp [hfalse, hreport]⟩
  · exact watchChange_refl h

theorem watchChange_sampleDelivery {s : State} {k : LinkId} {f : FrameInProgress} {w : Vector (BitVec 40) 6} {i : LaneNo}
    {l : Lane} {g : Stamp} (hs : s.heat.state = .watch) (hg : s.heat.gunStamp = some g) (h : l.watchLawful) :
    WatchChange s.settings l (sampleDelivery s k f w i l).1 (sampleDelivery s k f w i l).2 := by
  unfold sampleDelivery
  split
  · exact watchChange_refl h
  · rw [hs, hg]
    obtain ⟨hlaw, hkeeps, hreports, honly⟩ := watchLawful_takeSample (c := s.settings) h
    exact ⟨hlaw, honly, fun hor => hor.elim hkeeps hreports⟩

theorem not_judgedFalse_of_set {c : Settings} {l : Lane} (h : l.setLawful) : ¬ JudgedFalse c l := by
  rintro ⟨_, rt, hrt, _⟩
  rw [h.1] at hrt
  cases hrt

theorem watchChange_gunIndication {c : Settings} {g : Stamp} {i : LaneNo} {l : Lane} (h : l.setLawful) :
    WatchChange c l (gunIndication c g i l).1 (gunIndication c g i l).2 := by
  obtain ⟨hlaw, hfalse⟩ := watchLawful_gunIndication (c := c) (g := g) (i := i) h
  exact ⟨hlaw, by simp [hfalse, not_judgedFalse_of_set h]⟩

/-- An effect that leaves the heat in WATCH: what each lane reports, and the recall that the reports or a starter bring. -/
structure WatchMove (s u : State) (f : LaneNo → Option LaneReport) (x : Option RecallRecord) : Prop where
  settings : u.settings = s.settings
  issued : u.heat.issued = s.heat.issued.or x
  recalls : (∃ i, f i = some .falseOnset) → x.isSome = true
  cause : ∀ r, x = some r → r.cause = .falseStart → ∃ i, f i = some .falseOnset
  lanes : ∀ i : LaneNo, WatchChange s.settings s.lanes[i] u.lanes[i] (f i)
  before : s.heat.state = .watch ∨ s.heat.issued = none ∧ ∀ i : LaneNo, ¬ JudgedFalse s.settings s.lanes[i]

theorem watchMove_kept {s u : State} {x : Option RecallRecord} (hs : s.PhaseLaw) (hw : s.heat.state = .watch)
    (hl : u.lanes = s.lanes) (hc : u.settings = s.settings) (hi : u.heat.issued = s.heat.issued.or x)
    (hx : ∀ r, x = some r → r.cause ≠ .falseStart) : WatchMove s u (fun _ => none) x where
  settings := hc
  issued := hi
  recalls := by simp
  cause r hr hcause := absurd hcause (hx r hr)
  lanes i := by
    rw [hl]
    exact watchChange_refl (hs.inWatch hw i)
  before := .inl hw

/-- Lanes that report bring a recall, of cause FALSE_START exactly when one reports a false onset (R40). -/
theorem watchMove_reports {s v u : State} {f : LaneNo → Lane → Lane × Option LaneReport} (hv : v.lanes = s.lanes)
    (hi : v.heat.issued = s.heat.issued) (hc : u.settings = s.settings)
    (hl : ∀ i : LaneNo, u.lanes[i] = (f i s.lanes[i]).1) (hu : u.heat = (v.takeReports f).heat)
    (hf : ∀ i : LaneNo, WatchChange s.settings s.lanes[i] (f i s.lanes[i]).1 (f i s.lanes[i]).2)
    (hb : s.heat.state = .watch ∨ s.heat.issued = none ∧ ∀ i : LaneNo, ¬ JudgedFalse s.settings s.lanes[i]) :
    ∃ x, WatchMove s u (fun i => (f i s.lanes[i]).2) x := by
  have hreported : v.reported f .falseOnset = true ↔ ∃ i : LaneNo, (f i s.lanes[i]).2 = some .falseOnset := by
    rw [reported_iff, hv]
  refine ⟨_, hc, by rw [hu, takeReports_issued, hi], fun h => ?_, fun r hr hcause => ?_, fun i => hl i ▸ hf i, hb⟩
  · rw [if_pos (hreported.2 h)]
    rfl
  · by_cases h : v.reported f .falseOnset = true
    · exact hreported.1 h
    · rw [if_neg h] at hr
      split at hr <;> cases hr
      cases hcause

theorem watchMove_starterRecall {s v : State} (hs : s.PhaseLaw) (hv : v.heat = s.heat) (hl : v.lanes = s.lanes)
    (hc : v.settings = s.settings) (hu : v.starterRecall.heat.state = .watch) :
    ∃ f x, WatchMove s v.starterRecall f x := by
  have hheat := starterRecall_heat v
  by_cases hr : v.heat.state = .running
  · simp [hheat, hr] at hu
  · rw [if_neg hr] at hheat
    have hw : s.heat.state = .watch := by simpa [hheat, hv] using hu
    refine ⟨_, some ⟨.starter, v.trackTime⟩, watchMove_kept hs hw ?_ ?_ ?_ ?_⟩
    · rw [starterRecall_lanes, hl]
    · rw [starterRecall_settings, hc]
    · rw [hheat, issueRecall_issued, hv]
    · rintro r hr
      cases hr
      simp

theorem effect_watchMove {s u : State} (hlaw : s.HeatLaw) (hs : s.PhaseLaw) (h : RecordEffect s u)
    (hu : u.heat.state = .watch) : ∃ f x, WatchMove s u f x := by
  have hkept : u.heat = s.heat → u.lanes = s.lanes → u.settings = s.settings → ∃ f x, WatchMove s u f x :=
    fun hh hl hc => ⟨_, none, watchMove_kept hs (hh ▸ hu) hl hc (by simp [hh]) (by simp)⟩
  cases h
  case softReset => simp [Heat.cleared] at hu
  case fullReset => simp [State.fullReset, Heat.cleared] at hu
  case openHeat | closeHeat | callMarks => cases hu
  case callSet => simp at hu
  case standUp => simp at hu
  case deadlineExpiry => cases hu
  case closeExpiry => rcases closeAttempt_state s with hc | hc | hc <;> simp [hc] at hu
  case writeSetting hw _ _ =>
    rw [changeSettings_heat] at hu
    simp [hu, writableIn] at hw
  case loadProfile hi _ => simp [hi] at hu
  case enterLane hr _ _ _ => exact absurd (hr.symm.trans hu) (by simp)
  case vacateLane hr => exact absurd (hr.symm.trans hu) (by simp)
  case withdrawLane hh _ => exact absurd hu hh.2.2
  case imposeCharge hh _ _ _ _ => rw [changeLane_heat] at hu; simp [hu, reviewState] at hh
  case rescindCharge hh _ _ _ => rw [changeLane_heat] at hu; simp [hu, reviewState] at hh
  case rescindFieldWarning hh _ _ =>
    have hw : s.heat.state = .watch := hu
    simp [hw, reviewState] at hh
  case pulseEnd => exact ⟨_, none, watchMove_kept hs hu rfl rfl (by simp) (by simp)⟩
  case starterRecall => exact watchMove_starterRecall hs rfl rfl rfl hu
  case linkLost k _ =>
    have hw : s.heat.state = .watch := by simpa [State.loseLink] using hu
    exact ⟨_, watchMove_reports (withLink_lanes s k _) (by simp) (loseLink_settings s k)
      (fun i => loseLink_getElem s k i.val i.isLt) (settlePermit_heat _)
      (fun i => by rw [hw]; exact watchChange_lossIndication (hs.inWatch hw i)) (.inl hw)⟩
  case frameArrival k f w _ =>
    have hw : s.heat.state = .watch := by simpa [State.deliver] using hu
    obtain ⟨g, hg⟩ := Option.isSome_iff_exists.1 (hlaw.gunPresent (.inl hw))
    exact ⟨_, watchMove_reports (withLink_lanes s k _) (by simp) (deliver_settings s k f w)
      (fun i => deliver_getElem s k f w i.val i.isLt) (settlePermit_heat _)
      (fun i => watchChange_sampleDelivery hw hg (hs.inWatch hw i)) (.inl hw)⟩
  case gunAcceptance q _ =>
    unfold State.acceptGun State.takeGun at hu ⊢
    split at hu
    · next hset =>
      have hset' : s.heat.state = .set := hset
      exact ⟨_, watchMove_reports (s := s) (f := gunIndication s.settings q.edge) (by rfl) (by rfl)
        (startAttempt_settings _ _)
        (fun i => startAttempt_getElem _ _ i.val i.isLt) (settlePermit_heat _)
        (fun i => watchChange_gunIndication (hs.inSet hset' i))
        (.inr ⟨hlaw.issued (by simp [hset']) (by simp [hset']), fun i => not_judgedFalse_of_set (hs.inSet hset' i)⟩)⟩
    · exact watchMove_starterRecall hs rfl rfl rfl hu
    · exact watchMove_starterRecall hs rfl rfl rfl hu
    · exact ⟨_, none, watchMove_kept hs (by simpa using hu) (by simp) (by simp) (by simp) (by simp)⟩
  all_goals exact hkept (by simp) (by simp) (by simp)

/-! ### The law -/

theorem phaseLaw_iff_false (s : State) :
    (∃ i : LaneNo, (s.falseRt i).isSome = true) ↔ ∃ i : LaneNo, JudgedFalse s.settings s.lanes[i] :=
  exists_congr fun i => falseRt_isSome_iff s i

theorem watchMove_recalled {s u : State} {f : LaneNo → Option LaneReport} {x : Option RecallRecord} (hs : s.PhaseLaw)
    (hm : WatchMove s u f x) (hu : ∃ i : LaneNo, JudgedFalse u.settings u.lanes[i]) : u.heat.issued.isSome = true := by
  obtain ⟨i, hi⟩ := hu
  rw [hm.settings, (hm.lanes i).false_iff] at hi
  rw [hm.issued, Option.isSome_or, Bool.or_eq_true]
  rcases hi with hi | hi
  · rcases hm.before with hw | ⟨_, hno⟩
    · exact .inl (hs.recalled hw ((phaseLaw_iff_false s).2 ⟨i, hi⟩))
    · exact absurd hi (hno i)
  · exact .inr (hm.recalls ⟨i, hi⟩)

theorem watchMove_recallCause {s u : State} {f : LaneNo → Option LaneReport} {x : Option RecallRecord} (hs : s.PhaseLaw)
    (hm : WatchMove s u f x) (r : RecallRecord) (hr : u.heat.issued = some r) (hc : r.cause = .falseStart) :
    ∃ i : LaneNo, JudgedFalse u.settings u.lanes[i] := by
  have hfalse : ∃ i : LaneNo, JudgedFalse s.settings s.lanes[i] ∨ f i = some .falseOnset := by
    rw [hm.issued, Option.or_eq_some_iff] at hr
    rcases hr with hr | ⟨_, hr⟩
    · rcases hm.before with hw | ⟨hnone, _⟩
      · obtain ⟨i, hi⟩ := (phaseLaw_iff_false s).1 (hs.recallCause hw r hr hc)
        exact ⟨i, .inl hi⟩
      · rw [hnone] at hr
        cases hr
    · obtain ⟨i, hi⟩ := hm.cause r hr hc
      exact ⟨i, .inr hi⟩
  obtain ⟨i, hi⟩ := hfalse
  exact ⟨i, by rw [hm.settings, (hm.lanes i).false_iff]; exact hi⟩

theorem effect_keeps_phaseLaw {s u : State} (hlaw : s.HeatLaw) (hs : s.PhaseLaw) (h : RecordEffect s u) : u.PhaseLaw := by
  have hmarks : ∀ i : LaneNo, s.heat.state = .marks → s.lanes[i].phase = .off ∧ SensingAbsent s.lanes[i] :=
    fun i hm => ⟨hs.off (.inr hm) i, hs.cleared hm i⟩
  refine ⟨fun hu i => laneMove_off (effect_laneMove h i) (fun ho => hs.off ho i) hu,
    fun hu i => laneMove_cleared (effect_laneMove h i) (hmarks i) hu,
    fun hu i => laneMove_setLawful (effect_laneMove h i) (hmarks i) (fun hset => hs.inSet hset i) hu,
    fun hu i => ?_, fun hu hfalse => ?_, fun hu r hr hc => ?_⟩
  all_goals obtain ⟨f, x, hm⟩ := effect_watchMove hlaw hs h hu
  · exact (hm.lanes i).lawful
  · exact watchMove_recalled hs hm ((phaseLaw_iff_false u).1 hfalse)
  · exact (phaseLaw_iff_false u).2 (watchMove_recallCause hs hm r hr hc)

theorem phaseLaw_congr {s t : State} (hh : t.heat = s.heat) (hl : t.lanes = s.lanes) (hc : t.settings = s.settings)
    (hs : s.PhaseLaw) : t.PhaseLaw := by
  have hfalse := phaseLaw_iff_false t
  rw [hl, hc, ← phaseLaw_iff_false s] at hfalse
  constructor <;> rw [hh] <;> try rw [hl]
  case recalled => rw [hfalse]; exact hs.recalled
  case recallCause => rw [hfalse]; exact hs.recallCause
  exacts [hs.off, hs.cleared, hs.inSet, hs.inWatch]

/-- Settles O54: every effect on the records keeps the law of the heat record, and under it the other two; a step is an effect
or the passing of a unit of time. -/
theorem heatLawsKept : Obligations.HeatLawsKept := by
  unfold Obligations.HeatLawsKept
  intro s t h hlaw
  rcases step_effect h with ⟨v, u, hv, hu, ht⟩ | ⟨_, rfl⟩
  · have hvlaw := sameRecords_heatLaw hv hlaw
    refine ⟨sameRecords_heatLaw ht (heatMove_keeps_heatLaw hvlaw (effect_heatMove hu)), fun hs => ?_, fun hs => ?_⟩
    · obtain ⟨_, _, _, _, _, _, _, _, _, rfl⟩ := ht
      have hu' := effect_keeps_finalityLaw hvlaw ((finalityLaw_iff v).2 (by
        rw [sameRecords_heat hv, sameRecords_lanes hv]; exact (finalityLaw_iff s).1 hs)) hu
      exact ⟨hu'.charges, hu'.warning⟩
    · have hsettings : v.settings = s.settings := by obtain ⟨_, _, _, _, _, _, _, _, _, rfl⟩ := hv; rfl
      have hu' := effect_keeps_phaseLaw hvlaw (phaseLaw_congr (sameRecords_heat hv) (sameRecords_lanes hv) hsettings hs) hu
      obtain ⟨_, _, _, _, _, _, _, _, _, rfl⟩ := ht
      exact phaseLaw_congr (s := u) rfl rfl rfl hu'
  · refine ⟨heatLaw_congr (passUnit_heat s) (passUnit_report s) hlaw, fun hs => ?_,
      phaseLaw_congr (passUnit_heat s) (passUnit_lanes s) (passUnit_settings s)⟩
    rw [finalityLaw_iff, passUnit_heat, passUnit_lanes]
    exact (finalityLaw_iff s).1 hs

end Sys2Proof.Proofs
end

section
/-! PROOFS. The laws of the level (R98) and of the sensing units' counts and forces (Tables 5-1 and 6-1), read off what becomes of
one lane. -/

namespace Sys2Proof.Proofs

open Sys2Proof.Machine Sys2Proof.Laws

/-! ### A lane outside SET and WATCH -/

theorem lossIndication_idle {h : HeatState} (hs : h ≠ .set) (hw : h ≠ .watch) (c : Settings) (k : LinkId) (i : LaneNo)
    (l : Lane) : lossIndication c h k i l = (l, none) := by
  unfold lossIndication Lane.linkLost
  split
  · split <;> simp_all
  · rfl

theorem sampleDelivery_idle {s : State} (hs : s.heat.state ≠ .set) (hw : s.heat.state ≠ .watch) (k : LinkId)
    (f : FrameInProgress) (w : Vector (BitVec 40) 6) (i : LaneNo) (l : Lane) :
    (sampleDelivery s k f w i l).1.baseline = l.baseline := by
  unfold sampleDelivery
  split
  · rfl
  · rw [takeSample_idle l hs hw]
    exact noteFresh_baseline l _

theorem early_ne {h : HeatState} (he : h.early) : h ≠ .set ∧ h ≠ .watch := by
  rcases he with rfl | rfl <;> simp

theorem quiet_early {s u : State} (hq : Quiet s u) (hu : u.heat.state.early) : s.heat.state.early := by
  rcases hq with ⟨_, h⟩ | ⟨h, _⟩ | ⟨_, _, h | h⟩
  · exact h ▸ hu
  · exact .inl h
  all_goals rw [h] at hu; simp [HeatState.early] at hu

theorem quiet_not_early {s u : State} (hq : Quiet s u) (hu : ¬ u.heat.state.early) : ¬ s.heat.state.early := by
  rcases hq with ⟨_, h⟩ | ⟨_, h⟩ | ⟨_, h, _⟩
  · exact h ▸ hu
  · exact absurd (.inr h) hu
  · simp [h, HeatState.early]

/-! ### The level -/

theorem laneMove_early_baseline {s u : State} {i : LaneNo} (hm : LaneMove s u i)
    (hs : s.heat.state.early → s.lanes[i].baseline = none) (hu : u.heat.state.early) : u.lanes[i].baseline = none := by
  cases hm
  case kept hl _ hq => rw [hl]; exact hs (quiet_early hq hu)
  case resensed hl hearly _ => rw [hl, lane_settingsChange_baseline]; exact hs hearly
  case cleared hl _ | retired hl _ _ _ | vacated hl _ _ _ => rw [hl]; rfl
  case entered hl _ _ _ _ _ => rw [hl]; rfl
  case withdrawn hl _ _ hh _ => rw [hl, withdraw_baseline]; exact hs (hh ▸ hu)
  case marksCalled hl _ _ _ _ => rw [hl]; rfl
  case setCalled hh _ | stoodUp hh _ => rw [hh] at hu; simp [HeatState.early] at hu
  case charged hr _ _ _ _ hh _ => exact absurd (hh ▸ hu) (not_early_of_review hr).1
  case rescinded hr _ _ _ hh _ => exact absurd (hh ▸ hu) (not_early_of_review hr).1
  case gunTaken hw _ _ => rw [hw] at hu; simp [HeatState.early] at hu
  case judged hw _ _ => rcases hw with hw | hw | hw <;> rw [hw] at hu <;> simp [HeatState.early] at hu
  case linkLost hl hst _ _ =>
    obtain ⟨hset, hwatch⟩ := early_ne (hst ▸ hu)
    rw [hl, lossIndication_idle hset hwatch]
    exact hs (hst ▸ hu)
  case delivered hl hst _ _ =>
    obtain ⟨hset, hwatch⟩ := early_ne (hst ▸ hu)
    rw [hl, sampleDelivery_idle hset hwatch]
    exact hs (hst ▸ hu)

theorem judgeLane_sensing (s : State) (i : LaneNo) (l : Lane) :
    ∃ g : Entry → Entry, s.judgeLane i l = l ∨ s.judgeLane i l = l.changeEntry g := by
  rcases judgeLane_entry s i l with hj | ⟨_, _, hj | ⟨_, _, _, _, _, hj⟩⟩
  exacts [⟨id, .inl hj⟩, ⟨_, .inr hj⟩, ⟨_, .inr hj⟩]

/-- The close leaves the sensing fields as they were, but for the block and the detection period that the attempt's end
takes. -/
theorem judged_sensing (s : State) (i : LaneNo) :
    ∃ g : Entry → Entry, (atClose s).judgeLane i (atClose s).lanes[i] = s.lanes[i] ∨
      (atClose s).judgeLane i (atClose s).lanes[i] = s.lanes[i].attemptEnded ∨
      (atClose s).judgeLane i (atClose s).lanes[i] = s.lanes[i].changeEntry g ∨
      (atClose s).judgeLane i (atClose s).lanes[i] = s.lanes[i].attemptEnded.changeEntry g := by
  obtain ⟨g, hj⟩ := judgeLane_sensing (atClose s) i (atClose s).lanes[i]
  rw [atClose_lane] at hj
  refine ⟨g, ?_⟩
  rw [atClose_lane]
  by_cases he : s.lanes[i].eligible = true
  · rw [if_pos he] at hj ⊢
    exact hj.elim (fun h => .inr (.inl h)) fun h => .inr (.inr (.inr h))
  · rw [if_neg he] at hj ⊢
    exact hj.elim .inl fun h => .inr (.inr (.inl h))

theorem laneMove_levelLawful {s u : State} {i : LaneNo} (hm : LaneMove s u i)
    (hs : ¬ s.heat.state.early → s.lanes[i].levelLawful s.settings) (hu : ¬ u.heat.state.early) :
    u.lanes[i].levelLawful u.settings := by
  have hattempt : s.heat.state.inAttempt → s.lanes[i].levelLawful s.settings := fun h => hs (by
    rcases h with h | h | h <;> simp [h, HeatState.early])
  cases hm
  case kept hl hc hq => rw [hl, hc]; exact hs (quiet_not_early hq hu)
  case resensed hearly hh => exact absurd (hh ▸ hearly) hu
  case cleared hh => exact absurd (by rw [hh]; exact .inl rfl) hu
  case retired hidle _ _ => exact absurd (.inl hidle) hu
  case vacated hr hh _ => exact absurd (hh ▸ .inr hr) hu
  case entered hr _ hh _ => exact absurd (hh ▸ .inr hr) hu
  case withdrawn hl _ _ hh hc => rw [hl, hc]; exact levelLawful_congr (.inl rfl) rfl (hs (hh ▸ hu))
  case marksCalled hl _ _ _ hc => rw [hl, hc]; exact levelLawful_of_absent rfl rfl
  case setCalled hl hmarks _ hc =>
    obtain ⟨hlevel, hblock⟩ := hattempt (.inl hmarks)
    rw [hl, hc]
    split
    · exact ⟨hlevel, by simp [Lane.attemptSet]⟩
    · exact ⟨hlevel, hblock⟩
  case stoodUp hl hst _ hc =>
    have hlevel := hattempt (hst.elim .inl fun h => .inr (.inl h))
    rw [hl, hc]
    split
    · exact levelLawful_congr (.inl rfl) rfl hlevel
    · exact hlevel
  case charged hl hr _ _ _ _ _ hc =>
    rw [hl, hc]
    exact levelLawful_congr (.inl rfl) rfl (hs (not_early_of_review hr).1)
  case rescinded hl hr _ _ _ _ hc =>
    rw [hl, hc]
    exact levelLawful_congr (.inl rfl) rfl (hs (not_early_of_review hr).1)
  case gunTaken hl hset _ _ hc =>
    have hlevel := hattempt (.inr (.inl hset))
    rw [hl, hc, gunIndication]
    split
    · exact levelLawful_gunAccepted hlevel
    · exact hlevel
  case judged hl hw _ _ hc =>
    have hlevel := hattempt (.inr (.inr hw))
    obtain ⟨g, hj | hj | hj | hj⟩ := judged_sensing s i <;> rw [hl, hc, hj]
    · exact hlevel
    all_goals exact levelLawful_congr (.inl rfl) rfl hlevel
  case linkLost hl hst _ hc =>
    have hlevel := hs (hst ▸ hu)
    rw [hl, hc, lossIndication]
    split
    · exact levelLawful_linkLost hlevel
    · exact hlevel
  case delivered hl hst _ hc =>
    have hlevel := hs (hst ▸ hu)
    rw [hl, hc, sampleDelivery]
    split
    · exact hlevel
    · exact levelLawful_takeSample hlevel

theorem effect_keeps_levelLaw {s u : State} (hs : s.LevelLaw) (h : RecordEffect s u) : u.LevelLaw where
  early hu i := laneMove_early_baseline (effect_laneMove h i) (fun he => hs.early he i) hu
  later hu i := laneMove_levelLawful (effect_laneMove h i) (fun he => hs.later he i) hu

/-! ### Counts and forces -/

theorem blockForce_cleared : BlockForceLawful Lane.cleared := ⟨by decide, by simp [Lane.cleared]⟩

theorem gunAccepted_block (c : Settings) (i : LaneNo) (g : Stamp) (l : Lane) : (l.gunAccepted c i g).1.block = Block.empty := by
  unfold Lane.gunAccepted
  dsimp only
  (repeat' split) <;> rfl

theorem gunAccepted_runCount (c : Settings) (i : LaneNo) (g : Stamp) (l : Lane) :
    (l.gunAccepted c i g).1.runCount = l.runCount ∨ (l.gunAccepted c i g).1.runCount = 0 := by
  unfold Lane.gunAccepted
  dsimp only
  (repeat' split) <;> simp [Lane.endDetection]

theorem blockForce_gunIndication {c : Settings} {g : Stamp} {i : LaneNo} {l : Lane} (h : BlockForceLawful l) :
    BlockForceLawful (gunIndication c g i l).1 := by
  unfold gunIndication
  split
  · exact blockForce_congr h (.inr (gunAccepted_block c i g l)) (.inl (by simp))
  · exact h

theorem laneMove_blockForce {s u : State} {i : LaneNo} (hm : LaneMove s u i) (hs : BlockForceLawful s.lanes[i]) :
    BlockForceLawful u.lanes[i] := by
  cases hm
  case kept hl _ _ => exact hl ▸ hs
  case resensed hl _ _ =>
    rw [hl]
    exact blockForce_congr hs (.inl (by simp)) (lane_settingsChange _ _ _ _).2
  case cleared hl _ => exact hl ▸ blockForce_cleared
  case retired hl _ _ _ | vacated hl _ _ _ => rw [hl]; exact blockForce_congr hs (.inl rfl) (.inl rfl)
  case entered hl _ _ _ _ _ => rw [hl]; exact blockForce_congr hs (.inl rfl) (.inl rfl)
  case withdrawn hl _ _ _ _ => rw [hl]; exact blockForce_congr hs (.inl rfl) (.inl rfl)
  case marksCalled hl _ _ _ _ => rw [hl]; exact blockForce_congr hs (.inr rfl) (.inl rfl)
  case setCalled hl _ _ _ | stoodUp hl _ _ _ =>
    rw [hl]
    split
    · exact blockForce_congr hs (.inr rfl) (.inl rfl)
    · exact hs
  case charged hl _ _ _ _ _ _ _ => rw [hl]; exact blockForce_congr hs (.inl rfl) (.inl rfl)
  case rescinded hl _ _ _ _ _ _ => rw [hl]; exact blockForce_congr hs (.inl rfl) (.inl rfl)
  case gunTaken hl _ _ _ _ => exact hl ▸ blockForce_gunIndication hs
  case judged hl _ _ _ _ =>
    obtain ⟨g, hj | hj | hj | hj⟩ := judged_sensing s i <;> rw [hl, hj]
    · exact hs
    · exact blockForce_congr hs (.inr rfl) (.inl rfl)
    · exact blockForce_congr hs (.inl rfl) (.inl rfl)
    · exact blockForce_congr hs (.inr rfl) (.inl rfl)
  case linkLost hl _ _ _ =>
    rw [hl, lossIndication]
    split
    · exact blockForce_linkLost hs
    · exact hs
  case delivered hl _ _ _ =>
    rw [hl, sampleDelivery]
    split
    · exact hs
    · exact blockForce_takeSample (fun _ => slotOutcome_force_le) hs

/-- CONFIRM_COUNT is at least 2 (Table 11-1). -/
theorem confirmCount_ge {c : Settings} (h : LegalSettings c) : 2 ≤ c.confirmCount := (h.range 7).1

theorem laneMove_counts {s u : State} {i : LaneNo} (hm : LaneMove s u i) (hc2 : 2 ≤ s.settings.confirmCount)
    (hs : ¬ s.heat.state.early → CountsLawful s.settings s.lanes[i]) (hu : ¬ u.heat.state.early) :
    CountsLawful u.settings u.lanes[i] := by
  have hattempt : s.heat.state.inAttempt → CountsLawful s.settings s.lanes[i] := fun h => hs (by
    rcases h with h | h | h <;> simp [h, HeatState.early])
  cases hm
  case kept hl hc hq => rw [hl, hc]; exact hs (quiet_not_early hq hu)
  case resensed hearly hh => exact absurd (hh ▸ hearly) hu
  case cleared hh => exact absurd (by rw [hh]; exact .inl rfl) hu
  case retired hidle _ _ => exact absurd (.inl hidle) hu
  case vacated hr hh _ => exact absurd (hh ▸ .inr hr) hu
  case entered hr _ hh _ => exact absurd (hh ▸ .inr hr) hu
  case withdrawn hl _ _ hh hc => rw [hl, hc]; exact hs (hh ▸ hu)
  case marksCalled hl _ _ _ hc => rw [hl, hc]; exact ⟨Nat.zero_le _, Nat.zero_le _, by show 0 < _; omega⟩
  case setCalled hl hmarks _ hc =>
    have hcounts := hattempt (.inl hmarks)
    rw [hl, hc]
    split
    · exact counts_congr hcounts (.inr rfl) (.inr rfl) (.inl rfl) hc2
    · exact hcounts
  case stoodUp hl hst _ hc =>
    have hcounts := hattempt (hst.elim .inl fun h => .inr (.inl h))
    rw [hl, hc]
    split
    · exact counts_congr hcounts (.inl rfl) (.inl rfl) (.inr rfl) hc2
    · exact hcounts
  case charged hl hr _ _ _ _ _ hc => rw [hl, hc]; exact hs (not_early_of_review hr).1
  case rescinded hl hr _ _ _ _ hc => rw [hl, hc]; exact hs (not_early_of_review hr).1
  case gunTaken hl hset _ _ hc =>
    have hcounts := hattempt (.inr (.inl hset))
    rw [hl, hc, gunIndication]
    split
    · exact counts_congr hcounts (.inl (by simp)) (.inl (by simp)) (gunAccepted_runCount _ _ _ _) hc2
    · exact hcounts
  case judged hl hw _ _ hc =>
    have hcounts := hattempt (.inr (.inr hw))
    obtain ⟨g, hj | hj | hj | hj⟩ := judged_sensing s i <;> rw [hl, hc, hj]
    · exact hcounts
    · exact counts_congr hcounts (.inl rfl) (.inl rfl) (.inr rfl) hc2
    · exact hcounts
    · exact counts_congr hcounts (.inl rfl) (.inl rfl) (.inr rfl) hc2
  case linkLost hl hst _ hc =>
    have hcounts := hs (hst ▸ hu)
    rw [hl, hc, lossIndication]
    split
    · exact counts_linkLost hc2 hcounts
    · exact hcounts
  case delivered hl hst _ hc =>
    have hcounts := hs (hst ▸ hu)
    rw [hl, hc, sampleDelivery]
    split
    · exact hcounts
    · exact counts_takeSample hc2 hcounts

theorem countLaw_iff (s : State) :
    s.CountLaw ↔ (∀ i : LaneNo, BlockForceLawful s.lanes[i]) ∧
      (¬ s.heat.state.early → ∀ i : LaneNo, CountsLawful s.settings s.lanes[i]) :=
  ⟨fun h => ⟨fun i => ⟨h.block i, h.force i⟩, h.counts⟩, fun ⟨h, k⟩ => ⟨fun i => (h i).1, fun i => (h i).2, k⟩⟩

theorem effect_keeps_countLaw {s u : State} (hl : s.SettingsLaw) (hs : s.CountLaw) (h : RecordEffect s u) : u.CountLaw := by
  rw [countLaw_iff] at hs ⊢
  exact ⟨fun i => laneMove_blockForce (effect_laneMove h i) (hs.1 i),
    fun hu i => laneMove_counts (effect_laneMove h i) (confirmCount_ge ((settingsLaw_iff s).1 hl).1) (fun he => hs.2 he i) hu⟩

end Sys2Proof.Proofs
end

section
/-! PROOFS. The laws of PERMIT_OUT (R82), of RECALL_OUT (R42) and of the gun capture block (R76, R77): what an effect makes of each;
the statement O56 assembled from these. -/

namespace Sys2Proof.Proofs

open Sys2Proof.Machine Sys2Proof.Laws

/-! ### The permit -/

theorem permitLaw_iff (s : State) : s.PermitLaw ↔ s.gun.permitOut = s.permitConditions := by
  unfold State.PermitLaw
  rw [← permitConditions_iff, Bool.coe_iff_coe]

theorem permit_settled (v : State) : v.settlePermit.gun.permitOut = v.settlePermit.permitConditions := by simp

/-- Out of SET the permit is off, and stays off where the gun block keeps it. -/
theorem permit_outside {s u : State} (hs : s.gun.permitOut = s.permitConditions) (h : s.heat.state ≠ .set)
    (hu : u.heat.state ≠ .set) (hg : u.gun.permitOut = s.gun.permitOut) : u.gun.permitOut = u.permitConditions := by
  rw [hg, hs, permitConditions_outside h, permitConditions_outside hu]

/-- Nothing that the permit reads changes. -/
theorem permit_kept {s u : State} (hs : s.gun.permitOut = s.permitConditions) (hh : u.heat.state = s.heat.state)
    (hl : u.lanes = s.lanes) (hc : u.settings = s.settings) (hk : ∀ k, (u.link k).align = (s.link k).align)
    (hg : u.gun.permitOut = s.gun.permitOut) : u.gun.permitOut = u.permitConditions := by
  rw [hg, hs, permitConditions_congr hh hl hc (hk .a) (hk .b)]

theorem not_set_of_review {h : HeatState} (hr : reviewState h = true) : h ≠ .set := by
  rcases (reviewState_iff h).1 hr with rfl | rfl | rfl <;> simp

theorem starterRecall_not_set {s : State} (h : s.heat.state ≠ .set) : s.starterRecall.heat.state ≠ .set := by
  rcases (starterRecall_state_attempt s).2 with hs | ⟨_, hs⟩ <;> rw [hs]
  · exact h
  · simp

theorem acceptGun_permit {s : State} (q : Qualification) (hs : s.gun.permitOut = s.permitConditions) :
    (s.acceptGun q).gun.permitOut = (s.acceptGun q).permitConditions := by
  unfold State.acceptGun State.takeGun
  split
  · exact permit_settled _
  · next h =>
    have hset : s.heat.state ≠ .set := by rw [show s.heat.state = .watch from h]; simp
    exact permit_outside hs hset (starterRecall_not_set hset) (by simp)
  · next h =>
    have hset : s.heat.state ≠ .set := by rw [show s.heat.state = .running from h]; simp
    exact permit_outside hs hset (starterRecall_not_set hset) (by simp)
  · next hset _ _ => exact permit_outside hs hset hset (by simp)

theorem effect_permit {s u : State} (hs : s.gun.permitOut = s.permitConditions) (h : RecordEffect s u) :
    u.gun.permitOut = u.permitConditions := by
  cases h
  case softReset => rw [permitConditions_outside (by simp [Heat.cleared])]; simp
  case fullReset => rw [permitConditions_outside (by simp [State.fullReset, Heat.cleared])]; simp [State.fullReset]
  case writeSetting hw _ _ =>
    have hset := (early_ne (early_of_writable hw)).1
    exact permit_outside hs hset (by rwa [changeSettings_heat]) (by simp)
  case loadProfile hi _ => exact permit_outside hs (by simp [hi]) (by simp [hi]) (by simp)
  case openHeat hi _ _ => exact permit_outside hs (by simp [hi]) (by simp) rfl
  case closeHeat h => exact permit_outside hs (by rintro hset; simp [hset, closable] at h) (by simp [State.retire, Heat.cleared]) rfl
  case enterLane hr _ _ _ => exact permit_outside hs (by simp [hr]) (by simp [hr]) (by simp)
  case vacateLane hr => exact permit_outside hs (by simp [hr]) (by simp [hr]) (by simp)
  case withdrawLane hh _ => exact permit_outside hs hh.2.1 (by simpa using hh.2.1) (by simp)
  case callMarks hh _ _ =>
    exact permit_outside hs (by rcases hh with hh | hh <;> simp [hh]) (by simp [State.beginAttempt]) (by simp)
  case callSet | standUp | linkLost | frameArrival | confirm => exact permit_settled _
  case starterRecall hh =>
    have hset : s.heat.state ≠ .set := by rcases hh with hh | hh <;> simp [hh]
    exact permit_outside hs hset (starterRecall_not_set hset) (by simp)
  case imposeCharge hh _ _ _ _ =>
    exact permit_outside hs (not_set_of_review hh) (by simpa using not_set_of_review hh) (by simp)
  case rescindCharge hh _ _ _ => exact permit_outside hs (not_set_of_review hh) (by simpa using not_set_of_review hh) (by simp)
  case gunAcceptance q _ => exact acceptGun_permit q hs
  case closeExpiry h =>
    refine permit_outside hs (by simp [h]) ?_ (by simp)
    rcases closeAttempt_state s with hc | hc | hc <;> simp [hc]
  case deadlineExpiry h => exact permit_outside hs (by simp [h]) (by simp [State.passDeadline]) (by simp)
  case wordFound l p h =>
    have hother : (s.withLink l { s.link l with align := .confirm, framePos := some p, confirmCount := 0 }).permitConditions =
        s.permitConditions := by
      rw [Bool.eq_iff_iff, permitConditions_iff, permitConditions_iff]
      simp only [withLink_heat, withLink_lanes, withLink_settings]
      refine and_congr_right fun _ => and_congr_right fun _ => and_congr_right fun _ => and_congr_right fun _ =>
        forall_congr' fun k => forall_congr' fun i => forall_congr' fun _ => forall_congr' fun _ => ?_
      rw [withLink_link]
      split
      · next hk => simp [hk, h]
      · rfl
    rw [hother, ← hs]
    simp
  case clearCounters l =>
    exact permit_kept hs (by simp) (by simp) (by simp) (fun k => by rw [withLink_link]; split <;> simp_all) (by simp)
  case frameBegins l p good n _ _ =>
    exact permit_kept hs (by simp) (by simp) (by simp)
      (fun k => by rw [withLink_link]; split <;> simp_all [LinkRx.frameBegins]) (by simp)
  case lineTransition l t b =>
    exact permit_kept hs (by simp) (by simp) (by simp) (fun k => by rw [withLink_link]; split <;> simp_all) (by simp)
  all_goals exact permit_kept hs rfl rfl rfl (fun k => rfl) rfl

/-! ### The recall pulse -/

/-- A pulse end that a recall of the state `s` may have set. -/
def PulseAfter (s : State) (p : Option Stamp) : Prop :=
  p = s.heat.pulseEnd ∨ p = some (stampAdd s.trackTime s.settings.recallPulse)

theorem pulseAfter_starterRecall (s : State) : PulseAfter s s.starterRecall.heat.pulseEnd := by
  have hissue : PulseAfter s (s.issueRecall .starter).heat.pulseEnd := by
    unfold State.issueRecall PulseAfter
    split <;> simp
  rw [starterRecall_heat]
  split <;> exact hissue

theorem pulseAfter_takeReports {s v : State} (hp : v.heat.pulseEnd = s.heat.pulseEnd) (ht : v.trackTime = s.trackTime)
    (hc : v.settings = s.settings) (f : LaneNo → Lane → Lane × Option LaneReport) :
    PulseAfter s (v.takeReports f).heat.pulseEnd := by
  rw [takeReports_heat, ht, hc]
  split
  · exact .inl hp
  · split
    · exact .inr rfl
    · split
      · exact .inr rfl
      · exact .inl hp

theorem pulseAfter_acceptGun (s : State) (q : Qualification) : PulseAfter s (s.acceptGun q).heat.pulseEnd := by
  unfold State.acceptGun State.takeGun
  split
  · unfold State.startAttempt
    rw [settlePermit_heat]
    exact pulseAfter_takeReports rfl rfl rfl _
  · exact pulseAfter_starterRecall _
  · exact pulseAfter_starterRecall _
  · exact .inl (by simp)

theorem closeAttempt_pulseEnd (s : State) : s.closeAttempt.heat.pulseEnd = s.heat.pulseEnd := by
  rw [closeAttempt_heat_atClose]

/-- The pulse end is kept or taken away, or set RECALL_PULSE from now; track time is kept, or starts anew with no pulse. -/
def PulseMove (s u : State) : Prop :=
  u.heat.pulseEnd = none ∨ u.trackTime = s.trackTime ∧ PulseAfter s u.heat.pulseEnd

theorem effect_pulseMove {s u : State} (h : RecordEffect s u) : PulseMove s u := by
  cases h
  case softReset => exact .inl (by simp [Heat.cleared])
  case fullReset => exact .inl (by simp [State.fullReset, Heat.cleared])
  case pulseEnd => exact .inl rfl
  case starterRecall => exact .inr ⟨by simp, pulseAfter_starterRecall s⟩
  case gunAcceptance q _ => exact .inr ⟨by simp, pulseAfter_acceptGun s q⟩
  case linkLost l _ =>
    refine .inr ⟨by simp, ?_⟩
    rw [State.loseLink, settlePermit_heat]
    exact pulseAfter_takeReports (by simp) (by simp) (by simp) _
  case frameArrival l f w _ =>
    refine .inr ⟨by simp, ?_⟩
    rw [State.deliver, settlePermit_heat]
    exact pulseAfter_takeReports (by simp) (by simp) (by simp) _
  case closeExpiry => exact .inr ⟨by simp, .inl (closeAttempt_pulseEnd s)⟩
  case standUp => exact .inr ⟨by simp, .inl (by simp)⟩
  all_goals exact .inr ⟨by simp, .inl (by simp [State.retire, State.beginAttempt, State.passDeadline])⟩

/-- RECALL_PULSE lies in 2000 to 20000 (Table 11-1). -/
theorem recallPulse_le {c : Settings} (h : LegalSettings c) : c.recallPulse ≤ 20000 := (h.range 4).2

theorem effect_keeps_pulseLaw {s u : State} (hl : s.SettingsLaw) (hs : s.PulseLaw) (h : RecordEffect s u) : u.PulseLaw := by
  intro p hp
  rcases effect_pulseMove h with hnone | ⟨ht, hkept | hset⟩
  · simp [hnone] at hp
  · rw [ht]
    exact hs p (hkept ▸ hp)
  · have hpulse := recallPulse_le ((settingsLaw_iff s).1 hl).1
    cases hset.symm.trans hp
    have hdiff : stampDiff (stampAdd s.trackTime s.settings.recallPulse) s.trackTime = (s.settings.recallPulse : Int) := by
      have hofInt := stampDiff_ofInt s.trackTime s.settings.recallPulse (by omega) (by omega)
      simpa [stampAdd] using hofInt
    rw [ht, hdiff]
    omega

/-- While no event is due, a pulse in progress still has a unit to run. -/
theorem passUnit_pulseLaw {s : State} (hdue : s.dueEvent = none) (hs : s.PulseLaw) : s.passUnit.PulseLaw := by
  intro p hp
  have hp' : s.heat.pulseEnd = some p := by simpa using hp
  have hrange := hs p hp'
  unfold State.passUnit
  split
  · exact hrange
  · next hreset =>
    have hlate : stampDiff s.trackTime p < 0 := by
      unfold State.dueEvent at hdue
      rw [if_neg hreset] at hdue
      split at hdue
      · cases hdue
      · next hnot => simpa [timerDue, hp', reached] using hnot
    unfold stampDiff stampAdd at *
    simp only [BitVec.toInt_eq_toNat_cond, BitVec.toNat_sub, BitVec.toNat_add, BitVec.toNat_ofNat] at *
    omega

/-! ### The gun capture block -/

/-- What an effect makes of the gun capture block. -/
inductive GunMove (s u : State) : Prop where
  | same (hq : u.gun.qualification = s.gun.qualification) (he : u.gun.lockoutEnd = s.gun.lockoutEnd)
      (hl : u.gun.lineLow = s.gun.lineLow)
  | unqualified (hq : u.gun.qualification = none)
  | edge (h : s.gun.qualification = none ∧ s.gun.lockoutEnd = none)
      (hq : u.gun.qualification = some ⟨s.trackTime, s.settings.gunQualify⟩) (he : u.gun.lockoutEnd = none)
      (hl : u.gun.lineLow = true)
  | fell (hq : u.gun.qualification = s.gun.qualification) (he : u.gun.lockoutEnd = s.gun.lockoutEnd)
      (hl : u.gun.lineLow = true)
  | lockoutEnded (hq : u.gun.qualification = s.gun.qualification) (he : u.gun.lockoutEnd = none)
      (hl : u.gun.lineLow = s.gun.lineLow)

theorem acceptGun_qualification (s : State) (q : Qualification) : (s.acceptGun q).gun.qualification = none := by
  unfold State.acceptGun State.takeGun
  split <;> simp [State.startAttempt]

theorem effect_gunMove {s u : State} (h : RecordEffect s u) : GunMove s u := by
  cases h
  case fullReset => exact .unqualified (by simp [State.fullReset])
  case gunEdge b hb _ =>
    cases b
    · exact .fell rfl rfl rfl
    · exact .edge (hb rfl) rfl (hb rfl).2 rfl
  case gunRelease => exact .unqualified rfl
  case lockoutEnd => exact .lockoutEnded rfl rfl rfl
  case gunAcceptance q _ => exact .unqualified (acceptGun_qualification s q)
  case callSet => exact .same (by simp [State.setField]) (by simp [State.setField]) (by simp [State.setField])
  all_goals exact .same (by simp [State.loseLink, State.deliver]) (by simp [State.loseLink, State.deliver]) (by simp [State.loseLink, State.deliver])

/-- GUN_QUALIFY lies in 2 to 50 (Table 11-1). -/
theorem gunQualify_range {c : Settings} (h : LegalSettings c) : 2 ≤ c.gunQualify ∧ c.gunQualify ≤ 50 := h.range 11

theorem effect_keeps_gunLaw {s u : State} (hl : s.SettingsLaw) (hs : s.GunLaw) (h : RecordEffect s u) : u.GunLaw := by
  cases effect_gunMove h
  case same hq he hline => exact ⟨by rw [hq, he]; exact hs.exclusive, by rw [hq, hline]; exact hs.low, by rw [hq]; exact hs.period⟩
  case unqualified hq => exact ⟨by simp [hq], by simp [hq], by simp [hq]⟩
  case edge hq he hline =>
    refine ⟨fun _ => he, fun _ => hline, fun q h => ?_⟩
    cases hq.symm.trans h
    exact gunQualify_range ((settingsLaw_iff s).1 hl).1
  case fell hq he hline => exact ⟨by rw [hq, he]; exact hs.exclusive, fun _ => hline, by rw [hq]; exact hs.period⟩
  case lockoutEnded hq he hline => exact ⟨fun _ => he, by rw [hq, hline]; exact hs.low, by rw [hq]; exact hs.period⟩

/-! ### The statement -/

/-- A law that equal records share, that every effect keeps under the settings law and that a passing unit keeps while no event
is due, is kept by every step under the settings law. -/
theorem step_keeps_under_settings {P : State → Prop} (hsame : ∀ u t, SameRecords u t → P u → P t)
    (hpass : ∀ s : State, s.dueEvent = none → P s → P s.passUnit)
    (heffect : ∀ s u, s.SettingsLaw → P s → RecordEffect s u → P u) {s t : State} (h : step s = .next t)
    (hl : s.SettingsLaw) (hs : P s) : P t := by
  rcases step_effect h with ⟨v, u, hv, hu, ht⟩ | ⟨hdue, rfl⟩
  · exact hsame u t ht (heffect v u (sameRecords_settingsLaw hv hl) (hsame s v hv hs) hu)
  · exact hpass s hdue hs

theorem levelLaw_congr {s t : State} (hh : t.heat = s.heat) (hl : t.lanes = s.lanes) (hc : t.settings = s.settings)
    (hs : s.LevelLaw) : t.LevelLaw :=
  ⟨by rw [hh, hl]; exact hs.early, by rw [hh, hl, hc]; exact hs.later⟩

theorem countLaw_congr {s t : State} (hh : t.heat = s.heat) (hl : t.lanes = s.lanes) (hc : t.settings = s.settings)
    (hs : s.CountLaw) : t.CountLaw :=
  ⟨by rw [hl]; exact hs.block, by rw [hl]; exact hs.force, by rw [hh, hl, hc]; exact hs.counts⟩

theorem gunLaw_congr {s t : State} (hg : t.gun = s.gun) (hs : s.GunLaw) : t.GunLaw :=
  ⟨by rw [hg]; exact hs.exclusive, by rw [hg]; exact hs.low, by rw [hg]; exact hs.period⟩

theorem sameRecords_kept {s t : State} (h : SameRecords s t) :
    t.settings = s.settings ∧ t.gun = s.gun ∧ t.trackTime = s.trackTime ∧ ∀ k, t.link k = s.link k := by
  obtain ⟨_, _, _, _, _, _, _, _, _, rfl⟩ := h
  exact ⟨rfl, rfl, rfl, fun k => rfl⟩

/-- Settles O56: each of the five laws is kept by every effect on the records, which is what a step is but for the passing of a
unit of track time. -/
theorem sensingAndOutputLawsKept : Obligations.SensingAndOutputLawsKept := by
  unfold Obligations.SensingAndOutputLawsKept
  refine ⟨fun s t h hl => ⟨?_, ?_⟩, fun s t h hl => ⟨?_, ?_, ?_⟩⟩
  · exact step_keeps_under_settings
      (fun u t ht => levelLaw_congr (sameRecords_heat ht) (sameRecords_lanes ht) (sameRecords_kept ht).1)
      (fun s _ => levelLaw_congr (passUnit_heat s) (passUnit_lanes s) (passUnit_settings s))
      (fun s u _ => effect_keeps_levelLaw) h hl
  · exact step_keeps_under_settings
      (fun u t ht => countLaw_congr (sameRecords_heat ht) (sameRecords_lanes ht) (sameRecords_kept ht).1)
      (fun s _ => countLaw_congr (passUnit_heat s) (passUnit_lanes s) (passUnit_settings s))
      (fun s u => effect_keeps_countLaw) h hl
  · simp only [permitLaw_iff]
    refine step_keeps_under_settings (P := fun s => s.gun.permitOut = s.permitConditions) (fun u t ht hp => ?_)
      (fun s _ hp => ?_) (fun s u _ hp hu => effect_permit hp hu) h hl
    · obtain ⟨hc, hg, _, hk⟩ := sameRecords_kept ht
      exact permit_kept hp (by rw [sameRecords_heat ht]) (sameRecords_lanes ht) hc (fun k => by rw [hk]) (by rw [hg])
    · exact permit_kept hp (by simp) (by simp) (by simp) (fun k => by cases k <;> simp [State.link]) (by simp)
  · refine step_keeps_under_settings (P := State.PulseLaw) (fun u t ht hp p hpulse => ?_) (fun s => passUnit_pulseLaw)
      (fun s u => effect_keeps_pulseLaw) h hl
    rw [sameRecords_heat ht] at hpulse
    rw [(sameRecords_kept ht).2.2.1]
    exact hp p hpulse
  · exact step_keeps_under_settings (fun u t ht => gunLaw_congr (sameRecords_kept ht).2.1)
      (fun s _ => gunLaw_congr (passUnit_gun s)) (fun s u => effect_keeps_gunLaw) h hl

end Sys2Proof.Proofs
end

section
/-! PROOFS. The slots of a link (R60), and the law of the link receivers (Table 3-3), kept by every effect on the records. -/

namespace Sys2Proof.Proofs

open Sys2Proof.Machine Sys2Proof.Laws

/-! ### Slots -/

theorem serves_iff {c : Settings} {l : LinkId} {i : LaneNo} :
    c.serves l i = true ↔ c.first l ≠ 0 ∧ c.first l ≤ laneNumber i ∧ laneNumber i ≤ c.last l := by
  simp [Settings.serves, Settings.enabled, and_assoc]

/-- A slot carries the lane that many places after the link's first, if the link serves it and it is open (R60). -/
theorem slotOf_eq_some {c : Settings} {l : LinkId} {i : LaneNo} {k : Fin 6} :
    c.slotOf l i = some k ↔ c.serves l i = true ∧ c.closed i = false ∧ laneNumber i = c.first l + k.val := by
  unfold Settings.slotOf
  split
  · next h =>
    obtain ⟨hserves, hopen⟩ : c.serves l i = true ∧ c.closed i = false := by simpa using h
    have hfirst := (serves_iff.1 hserves).2.1
    simp only [hserves, hopen, true_and, Option.dite_none_right_eq_some, Option.some.injEq, Fin.ext_iff]
    have := k.isLt
    constructor
    · rintro ⟨_, hk⟩
      omega
    · intro hk
      exact ⟨by omega, by omega⟩
  · next h =>
    simp only [Bool.and_eq_true, Bool.not_eq_true', not_and] at h
    exact ⟨nofun, fun ⟨hs, ho, _⟩ => absurd ho (h hs)⟩

theorem mapped_iff {c : Settings} {l : LinkId} {k : Fin 6} : c.mapped l k = true ↔ ∃ i, c.slotOf l i = some k := by
  unfold Settings.mapped
  rw [allLanes_any_iff]
  simp

/-! ### The receiver's operations -/

section Receiver

variable {c : Settings} {l : LinkId} {r : LinkRx}

theorem linkLaw_enabled (h : State.LinkLawAt c l r) (ha : r.align ≠ .disabled) : c.first l ≠ 0 :=
  fun h0 => ha (h.disabled.2 h0)

theorem linkLaw_enterSearch (h : State.LinkLawAt c l r) (hf : c.first l ≠ 0) : State.LinkLawAt c l r.enterSearch where
  disabled := by simp [LinkRx.enterSearch, hf]
  position := by simp [LinkRx.enterSearch]
  frame := by simp [LinkRx.enterSearch]
  confirm := Nat.zero_le _
  errored := Nat.zero_le _
  checkFailures := h.checkFailures
  seqFaults := h.seqFaults
  losses := h.losses
  unmapped := h.unmapped

theorem linkLaw_lose (h : State.LinkLawAt c l r) (hf : c.first l ≠ 0) : State.LinkLawAt c l r.lose :=
  { linkLaw_enterSearch h hf with losses := Nat.min_le_right _ _ }

theorem linkLaw_confirmAt {p : Stamp} {w : BitVec 16} (h : State.LinkLawAt c l r) (ha : r.align = .confirm) (hn : r.frame = none) :
    State.LinkLawAt c l (r.confirmAt c l p w) := by
  have hf := linkLaw_enabled h (by simp [ha])
  unfold LinkRx.confirmAt
  split
  · exact linkLaw_enterSearch h hf
  · split
    · next hc =>
      exact { h with
        position := by simp [ha]
        frame := by simp [hn]
        confirm := by show r.confirmCount + 1 ≤ 2; omega }
    · exact { h with
        disabled := by simp [hf]
        position := by simp
        frame := by simp
        confirm := Nat.zero_le _
        errored := Nat.zero_le _
        unmapped := fun k _ => by simp [LinkRx.clearSequences] }

theorem linkLaw_frameBegins {p : Stamp} {good : Bool} {n : Nat} (h : State.LinkLawAt c l r) (ha : r.align = .locked)
    (hn : n = r.erroredCount ∨ n ≤ 2) : State.LinkLawAt c l (r.frameBegins c l p good n) :=
  { h with
    position := by simp [LinkRx.frameBegins, ha]
    frame := fun _ => ha
    errored := hn.elim (fun he => he ▸ h.errored) id }

theorem linkLaw_arrived {f : FrameInProgress} {w : Vector (BitVec 40) 6} (h : State.LinkLawAt c l r) :
    State.LinkLawAt c l (r.arrived c l f w) :=
  { h with
    frame := by simp [LinkRx.arrived]
    checkFailures := Nat.min_le_right _ _
    seqFaults := Nat.min_le_right _ _
    unmapped := fun k hk => by simpa [LinkRx.arrived, hk] using h.unmapped k hk }

theorem linkLaw_disable (h : State.LinkLawAt c l r) {d : Settings} (hf : d.first l = 0) : State.LinkLawAt d l r.disable where
  disabled := by simp [LinkRx.disable, hf]
  position := by simp [LinkRx.disable, LinkRx.enterSearch]
  frame := by simp [LinkRx.disable, LinkRx.enterSearch]
  confirm := Nat.zero_le _
  errored := Nat.zero_le _
  checkFailures := h.checkFailures
  seqFaults := h.seqFaults
  losses := h.losses
  unmapped k _ := by simp [LinkRx.disable]

theorem linkLaw_reenabled (h : State.LinkLawAt c l r) {d : Settings} (hf : d.first l ≠ 0) :
    State.LinkLawAt d l r.enterSearch.clearSequences where
  disabled := by simp [LinkRx.clearSequences, LinkRx.enterSearch, hf]
  position := by simp [LinkRx.clearSequences, LinkRx.enterSearch]
  frame := by simp [LinkRx.clearSequences, LinkRx.enterSearch]
  confirm := Nat.zero_le _
  errored := Nat.zero_le _
  checkFailures := h.checkFailures
  seqFaults := h.seqFaults
  losses := h.losses
  unmapped k _ := by simp [LinkRx.clearSequences]

/-- Under other settings the law needs only that the link is enabled under both or neither, and the unmapped slots cleared. -/
theorem linkLaw_resettle {d : Settings} {q : Vector (Option (BitVec 4)) 6} (h : State.LinkLawAt c l r)
    (hf : c.first l = 0 ↔ d.first l = 0) (hq : ∀ k : Fin 6, d.mapped l k = false → q[k] = none) :
    State.LinkLawAt d l { r with prevSeq := q } :=
  { h with disabled := h.disabled.trans hf, unmapped := hq }

/-- A slot that a change of closures takes from its lane was that lane's under the old settings. -/
theorem slot_unmapped_by_closure {d : Settings} {k : Fin 6} (hfirst : c.first l = d.first l) (hlast : c.last l = d.last l)
    (hc : c.mapped l k = true) (hd : d.mapped l k = false) :
    (allLanes.any fun i => (c.slotOf l i == some k || d.slotOf l i == some k) && c.closed i != d.closed i) = true := by
  obtain ⟨i, hi⟩ := mapped_iff.1 hc
  obtain ⟨hserves, hopen, hplace⟩ := slotOf_eq_some.1 hi
  refine allLanes_any_iff.2 ⟨i, ?_⟩
  by_cases hclosed : d.closed i = true
  · simp [hi, hopen, hclosed]
  · have : d.slotOf l i = some k :=
      slotOf_eq_some.2 ⟨by simpa [serves_iff, hfirst, hlast] using hserves, by simpa using hclosed, hfirst ▸ hplace⟩
    rw [mapped_iff.2 ⟨i, this⟩] at hd
    cases hd

theorem enabled_false {c : Settings} {l : LinkId} : c.enabled l = false ↔ c.first l = 0 := by simp [Settings.enabled]

theorem linkLaw_settingsChange (h : State.LinkLawAt c l r) (d : Settings) : State.LinkLawAt d l (r.settingsChange c d l) := by
  unfold LinkRx.settingsChange
  split
  · next hd =>
    have hd0 := enabled_false.1 hd
    split
    · exact linkLaw_disable h hd0
    · next hc =>
      have hc0 := enabled_false.1 (Bool.not_eq_true _ ▸ hc)
      refine linkLaw_resettle h (by simp [hc0, hd0]) fun k _ => h.unmapped k ?_
      rw [← Bool.not_eq_true, mapped_iff]
      rintro ⟨i, hi⟩
      exact (serves_iff.1 (slotOf_eq_some.1 hi).1).1 hc0
  · next hd =>
    have hd0 : d.first l ≠ 0 := fun h0 => hd (enabled_false.2 h0)
    split
    · exact linkLaw_reenabled h hd0
    · next hc =>
      have hc0 : c.first l ≠ 0 := fun h0 => hc (enabled_false.2 h0)
      split
      · exact linkLaw_resettle h (by simp [hc0, hd0]) fun k _ => by simp
      · next hrange =>
        have hsame : c.first l = d.first l ∧ c.last l = d.last l := by
          simpa [Settings.range, Settings.enabled, hc0, hd0] using hrange
        refine linkLaw_resettle h (by simp [hc0, hd0]) fun k hk => ?_
        rw [Fin.getElem_fin, Vector.getElem_ofFn]
        split
        · rfl
        · next hkept =>
          refine h.unmapped k ?_
          rw [← Bool.not_eq_true]
          exact fun hmapped => hkept (slot_unmapped_by_closure hsame.1 hsame.2 hmapped hk)

end Receiver

/-! ### The law -/

theorem linkLaw_afterReset (c : Settings) (l : LinkId) (b : Bool) : State.LinkLawAt c l (LinkRx.afterReset (c.enabled l) b) := by
  by_cases h : c.enabled l = true
  · have : c.first l ≠ 0 := by simpa [Settings.enabled] using h
    constructor <;> simp [LinkRx.afterReset, h, this]
  · have : c.first l = 0 := by simpa [Settings.enabled] using h
    constructor <;> simp [LinkRx.afterReset, h, this]

theorem linkLaw_withLink {s u : State} {l : LinkId} {r : LinkRx} (hs : s.LinkLaw) (hc : u.settings = s.settings)
    (hu : ∀ k, u.link k = (s.withLink l r).link k) (hr : State.LinkLawAt s.settings l r) : u.LinkLaw := by
  intro k
  rw [hc, hu k, withLink_link]
  split
  · next h => exact h ▸ hr
  · exact hs k

theorem effect_keeps_linkLaw {s u : State} (hs : s.LinkLaw) (h : RecordEffect s u) : u.LinkLaw := by
  have hkept : u.settings = s.settings → (∀ k, u.link k = s.link k) → u.LinkLaw := fun hc hl k => by
    rw [hc, hl]
    exact hs k
  cases h
  case softReset => intro k; rw [softReset_settings, softReset_link]; exact linkLaw_settingsChange (hs k) _
  case fullReset => intro k; cases k <;> simpa [State.fullReset, State.link] using linkLaw_afterReset _ _ _
  case writeSetting => intro k; rw [changeSettings_settings, changeSettings_link]; exact linkLaw_settingsChange (hs k) _
  case loadProfile => intro k; rw [loadProfile_settings, loadProfile_link]; exact linkLaw_settingsChange (hs k) _
  case clearCounters l =>
    exact linkLaw_withLink hs (by simp) (fun k => rfl)
      { hs l with checkFailures := Nat.zero_le _, seqFaults := Nat.zero_le _, losses := Nat.zero_le _ }
  case wordFound l p ha =>
    have hf := linkLaw_enabled (hs l) (by simp [ha])
    refine linkLaw_withLink hs (by simp) (fun k => rfl)
      { hs l with disabled := by simp [hf], position := by simp, frame := fun hframe => ?_, confirm := Nat.zero_le _ }
    rw [(hs l).frame hframe] at ha
    cases ha
  case confirm l p w ha hn =>
    exact linkLaw_withLink hs (by simp) (fun k => settlePermit_link _ k) (linkLaw_confirmAt (hs l) ha hn)
  case frameBegins l p good n ha hn =>
    exact linkLaw_withLink hs (by simp) (fun k => rfl) (linkLaw_frameBegins (hs l) ha hn)
  case linkLost l ha =>
    exact linkLaw_withLink hs (by simp) (fun k => by rw [State.loseLink, settlePermit_link, takeReports_link])
      (linkLaw_lose (hs l) (linkLaw_enabled (hs l) (by simp [ha])))
  case frameArrival l f w _ =>
    exact linkLaw_withLink hs (by simp) (fun k => by rw [State.deliver, settlePermit_link, takeReports_link])
      (linkLaw_arrived (hs l))
  case lineTransition l t b => exact linkLaw_withLink hs (by simp) (fun k => rfl) { hs l with }
  all_goals exact hkept (by simp) fun k => link_congr (by simp) (by simp) k

theorem step_keeps_linkLaw {s t : State} (h : step s = .next t) (hs : s.LinkLaw) : t.LinkLaw := by
  have hcongr : ∀ {u v : State}, v.settings = u.settings → (∀ k, v.link k = u.link k) → u.LinkLaw → v.LinkLaw :=
    fun hc hl hu k => by
      rw [hc, hl]
      exact hu k
  rcases step_effect h with ⟨v, u, hv, hu, ht⟩ | ⟨_, rfl⟩
  · obtain ⟨hcv, _, _, hlv⟩ := sameRecords_kept hv
    obtain ⟨hct, _, _, hlt⟩ := sameRecords_kept ht
    exact hcongr hct hlt (effect_keeps_linkLaw (hcongr hcv hlv hs) hu)
  · exact hcongr (by simp) (fun k => link_congr (by simp) (by simp) k) hs

end Sys2Proof.Proofs
end

section
/-! PROOFS. What every command leaves waiting, and the law of the command port (Table 10-1), kept by every step; the statements O3 and
O57 assembled from these. -/

namespace Sys2Proof.Proofs

open Sys2Proof.Machine Sys2Proof.Laws

/-! ### Every command, by what it is -/

/-- A port command is received by its owner. -/
theorem exec_receive {i : Instr} {k : Byte} (hk : i.code = some k) (s : State) : ∃ owner, exec i s = s.receive i owner := by
  cases i <;> first | (cases hk; done) | exact ⟨_, by simp only [exec]; rfl⟩

/-- A port command that the port does not collect does nothing (R174, R175). -/
theorem exec_uncollected {i : Instr} {k : Byte} {s : State} (hk : i.code = some k) (hc : s.collecting = false) :
    exec i s = .next s := by
  obtain ⟨owner, ho⟩ := exec_receive hk s
  rw [ho, receive_ignored s hc]

/-- An event of the blocks behind the port: of gun capture, the links, the heat's timers or the profile store. -/
inductive BlockEvent : Instr → Prop where
  | profileSaveComplete : BlockEvent .profileSaveComplete
  | gunEdge : BlockEvent .gunEdge
  | gunRelease : BlockEvent .gunRelease
  | gunAcceptance : BlockEvent .gunAcceptance
  | lockoutEnd : BlockEvent .lockoutEnd
  | closeExpiry : BlockEvent .closeExpiry
  | deadlineExpiry : BlockEvent .deadlineExpiry
  | pulseEnd : BlockEvent .pulseEnd
  | searchWordFound (l : LinkId) (b : BitVec 16) : BlockEvent (.searchWordFound l b)
  | framePosition (l : LinkId) (q : Bool) (b : BitVec 16) : BlockEvent (.framePosition l q b)
  | linkSilence (l : LinkId) : BlockEvent (.linkSilence l)
  | frameArrival (l : LinkId) (w : Vector (BitVec 40) 6) : BlockEvent (.frameArrival l w)
  | lineTransition (l : LinkId) : BlockEvent (.lineTransition l)

/-- A state that differs from `s` in neither queue, track time, the port, nor the reset. -/
structure PortStands (s t : State) : Prop where
  trackTime : t.trackTime = s.trackTime
  pending : t.pending = s.pending
  edges : t.edges = s.edges
  port : t.port = s.port
  inReset : t.inReset = s.inReset

theorem portStands_refl (s : State) : PortStands s s := ⟨rfl, rfl, rfl, rfl, rfl⟩

/-- An event behind the port leaves the queues, track time, the port and the reset alone. -/
theorem exec_blockEvent {i : Instr} (h : BlockEvent i) (s : State) : ∃ t, exec i s = .next t ∧ PortStands s t := by
  have of_ite : ∀ (p : Prop) [Decidable p] (u : State), PortStands s u →
      ∃ t, (if p then Host.Outcome.next u else .next s : Host.Outcome State Fault Refusal) = .next t ∧ PortStands s t := by
    intro p _ u hu
    by_cases hp : p
    · exact ⟨u, if_pos hp, hu⟩
    · exact ⟨s, if_neg hp, portStands_refl s⟩
  cases h <;> simp only [exec]
  case profileSaveComplete =>
    unfold execProfileSaveComplete
    split
    · exact ⟨_, rfl, rfl, rfl, rfl, rfl, rfl⟩
    · exact ⟨s, rfl, portStands_refl s⟩
  case gunEdge =>
    unfold execGunEdge
    (repeat' split) <;> exact ⟨_, rfl, rfl, rfl, rfl, rfl, rfl⟩
  case gunRelease =>
    unfold execGunRelease
    (repeat' split) <;> exact ⟨_, rfl, rfl, rfl, rfl, rfl, rfl⟩
  case gunAcceptance =>
    unfold execGunAcceptance
    split
    · exact ⟨s, rfl, portStands_refl s⟩
    · exact of_ite _ _ ⟨by simp, by simp, by simp, by simp, by simp⟩
  case lockoutEnd => exact of_ite _ _ ⟨rfl, rfl, rfl, rfl, rfl⟩
  case closeExpiry => exact of_ite _ _ ⟨by simp, by simp, by simp, by simp, by simp⟩
  case deadlineExpiry => exact of_ite _ _ ⟨by simp, by simp, by simp, by simp, by simp⟩
  case pulseEnd => exact of_ite _ _ ⟨rfl, rfl, rfl, rfl, rfl⟩
  case searchWordFound l b => exact of_ite _ _ ⟨by simp, by simp, by simp, by simp, by simp⟩
  case framePosition l q b =>
    unfold execFramePosition
    (repeat' split) <;> exact ⟨_, rfl, by simp, by simp, by simp, by simp, by simp⟩
  case linkSilence l => exact of_ite _ _ ⟨by simp, by simp, by simp, by simp, by simp⟩
  case frameArrival l w =>
    unfold execFrameArrival
    split
    · exact ⟨s, rfl, portStands_refl s⟩
    · exact of_ite _ _ ⟨by simp, by simp, by simp, by simp, by simp⟩
  case lineTransition l => exact ⟨_, rfl, by simp, by simp, by simp, by simp, by simp⟩

/-- Every row has a next state and leaves the queues; all but FULL_RESET leave track time. -/
theorem exec_next (i : Instr) (s : State) :
    ∃ t, exec i s = .next t ∧ t.pending = s.pending ∧ t.edges = s.edges ∧ (i ≠ .fullReset → t.trackTime = s.trackTime) := by
  rcases hk : i.code with _ | k
  · have of_block : BlockEvent i →
        ∃ t, exec i s = .next t ∧ t.pending = s.pending ∧ t.edges = s.edges ∧ (i ≠ .fullReset → t.trackTime = s.trackTime) :=
      fun h => by
        obtain ⟨t, ht, hstands⟩ := exec_blockEvent h s
        exact ⟨t, ht, hstands.pending, hstands.edges, fun _ => hstands.trackTime⟩
    cases i <;> first | (cases hk; done) | skip
    case fullReset => exact ⟨_, rfl, by simp [State.fullReset], by simp [State.fullReset], fun h => absurd rfl h⟩
    case transactionEnd | transactionDiscard => exact ⟨_, rfl, by simp, by simp, fun _ => by simp⟩
    case transactionStart =>
      simp only [exec, execTransactionStart]
      split <;> exact ⟨_, rfl, rfl, rfl, fun _ => rfl⟩
    case unknownCommandCode code =>
      simp only [exec, execUnknownCommandCode]
      split <;> exact ⟨_, rfl, rfl, rfl, fun _ => rfl⟩
    case softResetAction m =>
      simp only [exec, execSoftResetAction]
      (repeat' split) <;> exact ⟨_, rfl, by simp, by simp, fun _ => by simp⟩
    case streamRecordCopy =>
      simp only [exec, execStreamRecordCopy]
      (repeat' split) <;> exact ⟨_, rfl, rfl, rfl, fun _ => rfl⟩
    case fullResetEnd b =>
      simp only [exec, execFullResetEnd]
      (repeat' split) <;> exact ⟨_, rfl, rfl, rfl, fun _ => rfl⟩
    all_goals exact of_block (by constructor)
  · by_cases hc : s.collecting = true
    · obtain ⟨o, ho, hleaves⟩ := exec_taken hk hc
      exact ⟨_, ho, by simpa using hleaves.pending, by simpa using hleaves.edges, fun _ => by simpa using hleaves.trackTime⟩
    · exact ⟨s, exec_uncollected hk (by simpa using hc), rfl, rfl, fun _ => rfl⟩

/-- Settles O3: a port command is answered or ignored, and every other row of the tables has a next state as well. -/
theorem everyCommandAnswersNext : Obligations.EveryCommandAnswersNext := by
  unfold Obligations.EveryCommandAnswersNext
  intro i s
  obtain ⟨t, ht, hpending, hedges, _⟩ := exec_next i s
  exact ⟨t, ht, hpending, hedges⟩

/-! ### The port's law, phase by phase -/

theorem portLaw_congr {s t : State} (hp : t.port = s.port) (hr : t.inReset = s.inReset) (h : s.PortLaw) : t.PortLaw := by
  constructor <;> rw [hp]
  case inReset => rw [hr]; exact h.inReset
  exacts [h.deselected, h.position, h.bits, h.idle, h.collecting, h.arguments, h.code, h.response, h.streaming, h.armed]

/-- Nothing is armed but while a command is answered (R184). -/
theorem portLaw_unarmed {s : State} (h : s.PortLaw) (hp : s.port.phase ≠ .answering) : s.port.softArmed = false := by
  rw [← Bool.not_eq_true]
  exact fun ha => hp (h.armed ha).1

/-- In Deselected nothing of a transaction stands. -/
theorem portLaw_deselected {t : State} {p : Port} (hp : t.port = p.deselect) (ha : p.softArmed = false) : t.PortLaw := by
  constructor <;> simp [hp, Port.deselect, ha]

/-- In Ignoring no command is held to be taken, and no response stands. -/
theorem portLaw_ignoring {t : State} {c : IgnoreCause} (hr : t.inReset = false) (hp : t.port.phase = .ignoring c)
    (hn : t.port.bitCount = some 0) (hk : t.port.bytePos.isSome = true) (hargs : t.port.argsReceived = none)
    (hresp : t.port.response = none) (ha : t.port.softArmed = false) : t.PortLaw := by
  constructor <;> simp [hr, hp, hn, hk, hargs, hresp, ha]

/-- A transaction begins in Collecting, with nothing received (R174). -/
theorem portLaw_begun {t : State} {p : Port} (hr : t.inReset = false)
    (hp : t.port = { p.deselect with phase := .collecting, bitCount := some 0, bytePos := some 0 })
    (ha : p.softArmed = false) : t.PortLaw := by
  constructor <;> simp [hp, Port.deselect, ha, hr]

/-- A taken command is answered (R176, R183), and a soft reset is armed only by one that is answered DONE (R184). -/
theorem portLaw_answered {s : State} {k : Byte} {n : Nat} {o : Owned} (h : OwnerLeaves k s o) (hc : s.collecting = true)
    (ha : s.port.softArmed = false) : (State.answered k n o).PortLaw := by
  have hr : o.1.inReset = false := h.inReset.trans ((collecting_iff s).1 hc).1
  have harmed : o.1.port.softArmed = true → k = 0x03 ∧ o.2 = Answer.ok := by
    rcases h.port with hp | ⟨hk, ho, _, _⟩
    · rw [hp, ha]
      simp
    · exact fun _ => ⟨hk, ho⟩
  have hport := answered_port k n o
  constructor <;> rw [hport] <;> simp [Port.answering, hr]
  intro hsoft
  obtain ⟨rfl, ho⟩ := harmed hsoft
  simp [ho, Answer.ok]

/-! ### The port's own events -/

theorem discard_port (s : State) : s.discard.port = { s.port with lastResult := .framing, latch := false }.deselect := by
  simp [State.discard, Port.deselect]

theorem selectRise_portLaw {s : State} (h : s.PortLaw) : s.selectRise.PortLaw := by
  unfold State.selectRise
  split
  · exact h
  · split
    · exact h
    · next hp => exact portLaw_deselected (discard_port s) (portLaw_unarmed h (by simp [hp]))
    · next hp => exact portLaw_deselected (discard_port s) (portLaw_unarmed h (by simp [hp]))
    · split
      · exact portLaw_deselected (p := s.softReset.port) (by simp) (by simp)
      · next ha => exact portLaw_deselected (p := s.port) rfl (by simpa using ha)

theorem softResetAction_portLaw {s t : State} {m : ResetMoment} (h : s.PortLaw)
    (hx : exec (.softResetAction m) s = .next t) : t.PortLaw := by
  simp only [exec, execSoftResetAction] at hx
  split at hx
  · cases hx
    exact h
  · next hready =>
    obtain ⟨hr, harm⟩ : s.inReset = false ∧ s.port.softArmed = true := by simpa using hready
    split at hx
    · cases hx
      obtain ⟨hphase, _, _, r, hresponse, _⟩ := h.armed harm
      have hargs := h.arguments (by simp [hphase])
      exact portLaw_ignoring (c := .softReset) (by simpa using hr) rfl rfl (by simp [State.ignoreRest, hresponse])
        (by simpa [State.ignoreRest] using hargs) rfl (by simp [State.ignoreRest])
    · cases hx
      exact selectRise_portLaw h

/-- While a stream is answered, its command's code stands, its arguments do not, and nothing is armed. -/
theorem portLaw_stream {s : State} {r : Response} (h : s.PortLaw) (hr : s.port.response = some r) (hs : r.stream.isSome = true) :
    s.port.code.isSome = true ∧ s.port.argsReceived = none ∧ s.port.softArmed = false ∧ s.inReset = false ∧
      s.port.bitCount ≠ none := by
  have hsent := h.response.1 (by simp [hr])
  refine ⟨h.code hsent, h.arguments (by rcases hsent with hp | hp <;> simp [hp]), ?_, ?_, ?_⟩
  · rw [← Bool.not_eq_true]
    intro ha
    obtain ⟨_, _, _, q, hq, hnone, _⟩ := h.armed ha
    cases hr.symm.trans hq
    simp [hnone] at hs
  · rw [← Bool.not_eq_true]
    intro hreset
    rcases hsent with hp | hp <;> simp [h.inReset hreset] at hp
  · intro hn
    rcases hsent with hp | hp <;> simp [h.deselected.2 hn] at hp

theorem streamRecordCopy_portLaw {s t : State} (h : s.PortLaw) (hx : exec .streamRecordCopy s = .next t) : t.PortLaw := by
  simp only [exec, execStreamRecordCopy] at hx
  split at hx
  · cases hx
    exact h
  · split at hx
    · cases hx
      exact h
    · next r hresponse =>
      split at hx
      · cases hx
        exact h
      · next x hstream =>
        cases hx
        obtain ⟨hcode, hargs, ha, hr, _⟩ := portLaw_stream h hresponse (by simp [hstream])
        constructor <;> simp [hargs, ha, hcode, hr]

theorem unknownCommandCode_portLaw {s t : State} {code : Byte} (ha : s.port.softArmed = false) (hc : s.collecting = true)
    (hn : argumentCount code = none) (hx : exec (.unknownCommandCode code) s = .next t) : t.PortLaw := by
  simp only [exec, execUnknownCommandCode, hc, hn] at hx
  cases hx
  exact portLaw_ignoring (c := .unknownCode) ((collecting_iff s).1 hc).1 rfl rfl rfl rfl rfl ha

/-- Every command keeps the port's law. -/
theorem exec_keeps_portLaw {i : Instr} {s t : State} (h : s.PortLaw) (hx : exec i s = .next t) : t.PortLaw := by
  rcases hk : i.code with _ | k
  · have of_block : BlockEvent i → t.PortLaw := fun hb => by
      obtain ⟨u, hu, hstands⟩ := exec_blockEvent hb s
      cases hu.symm.trans hx
      exact portLaw_congr hstands.port hstands.inReset h
    cases i <;> first | (cases hk; done) | skip
    case fullReset =>
      cases hx
      exact portLaw_deselected (p := Port.afterReset) (by simp [State.fullReset, Port.afterReset, Port.deselect]) rfl
    case transactionEnd | transactionDiscard =>
      cases hx
      exact selectRise_portLaw h
    case transactionStart =>
      simp only [exec, execTransactionStart] at hx
      split at hx
      · next hidle =>
        obtain ⟨hr, hp⟩ : s.inReset = false ∧ s.port.phase = .deselected := by simpa using hidle
        cases hx
        exact portLaw_begun (p := s.port) hr rfl (portLaw_unarmed h (by simp [hp]))
      · cases hx
        exact h
    case unknownCommandCode code =>
      by_cases hc : s.collecting = true ∧ argumentCount code = none
      · exact unknownCommandCode_portLaw (portLaw_unarmed h (by simp [((collecting_iff s).1 hc.1).2])) hc.1 hc.2 hx
      · simp only [exec, execUnknownCommandCode] at hx
        rw [if_neg (by simpa using hc)] at hx
        cases hx
        exact h
    case softResetAction m => exact softResetAction_portLaw h hx
    case streamRecordCopy => exact streamRecordCopy_portLaw h hx
    case fullResetEnd b =>
      simp only [exec, execFullResetEnd] at hx
      split at hx
      · next hr =>
        have hp := h.inReset hr
        have ha := portLaw_unarmed h (by simp [hp])
        have hresponse : s.port.response = none := by
          have := mt h.response.1 (by simp [hp])
          simpa using this
        split at hx <;> cases hx
        · exact { h with inReset := by simp }
        · exact portLaw_ignoring (c := .fullReset) rfl rfl rfl rfl (h.arguments (by simp [hp])) hresponse ha
      · cases hx
        exact h
    all_goals exact of_block (by constructor)
  · by_cases hc : s.collecting = true
    · obtain ⟨o, ho, hleaves⟩ := exec_taken hk hc
      cases ho.symm.trans hx
      exact portLaw_answered hleaves hc (portLaw_unarmed h (by simp [((collecting_iff s).1 hc).2]))
    · cases (exec_uncollected hk (by simpa using hc)).symm.trans hx
      exact h

/-! ### The pins -/

/-- Bytes that end a command's arguments spell a command (Table 12-2). -/
theorem decodeCommand_complete (wp : Bool) {code : Byte} {args : List Byte} (h : argumentCount code = some args.length) :
    decodeCommand wp (code :: args) ≠ none := by
  obtain ⟨i, hi⟩ := (argumentCount_isSome code).1 (by rw [h]; rfl)
  have hlength := Option.some.inj ((argumentCount_code hi).symm.trans h)
  cases i <;> cases hi <;> rcases args with _ | ⟨a, _ | ⟨b, _ | ⟨c, _ | ⟨d, l⟩⟩⟩⟩ <;> cases hlength <;>
    exact Option.some_ne_none _

/-- A bit that completes no byte in Collecting moves the bit count and the byte position alone (R175). -/
theorem portLaw_sample {s : State} {sdi : Bool} {n k : Nat} (h : s.PortLaw) (hn : s.port.bitCount = some n)
    (hk : s.port.bytePos = some k) (hbyte : n < 7 ∨ s.port.phase ≠ .collecting) :
    State.PortLaw { s with sckHigh := true, port := s.port.sample sdi n k } :=
  { h with
    deselected := by simpa [Port.sample, hn] using h.deselected
    position := by simp [Port.sample]
    bits := by
      simp only [Port.sample, Option.some.injEq, forall_eq']
      split <;> omega
    collecting := fun hp => by
      have hlt := hbyte.resolve_right (not_not_intro hp)
      simpa [Port.sample, hlt, hk] using h.collecting hp }

/-- The bytes received with the one just completed: as many as the byte position counts, and no more arguments than the code
calls for. -/
theorem bytesReceived_of_collecting {s : State} {k : Nat} (h : s.PortLaw) (hp : s.port.phase = .collecting)
    (hk : s.port.bytePos = some k) (sdi : Bool) (n : Nat) :
    ∃ code args, (s.port.sample sdi n k).bytesReceived = code :: args ∧ k = args.length ∧
      ∀ m, argumentCount code = some m → args.length ≤ m := by
  rcases h.collecting hp with ⟨hpos, hcode, hargs⟩ | ⟨code, args, m, hcode, hargs, hcount, hlt, hpos⟩
  · refine ⟨(s.port.sample sdi n k).shift, [], by simp [Port.bytesReceived, Port.sample, hcode, hargs], ?_, fun m _ => Nat.zero_le m⟩
    cases hpos.symm.trans hk
    rfl
  · refine ⟨code, args ++ [(s.port.sample sdi n k).shift], ?_, ?_, fun m' hm' => ?_⟩
    · simp [Port.bytesReceived, Port.sample, hcode, hargs]
    · cases hpos.symm.trans hk
      simp
    · cases hcount.symm.trans hm'
      simpa using hlt

/-- A byte that completes in Collecting takes a command, is unknown, or is kept (R174, R176, R179). -/
theorem byteReceived_portLaw {s t : State} {sdi : Bool} {k : Nat} (h : s.PortLaw) (hc : s.collecting = true)
    (hk : s.port.bytePos = some k)
    (hx : State.byteReceived { s with sckHigh := true, port := s.port.sample sdi 7 k } = .next t) : t.PortLaw := by
  have hp := ((collecting_iff s).1 hc).2
  have ha : s.port.softArmed = false := portLaw_unarmed h (by simp [hp])
  obtain ⟨code, args, hbytes, hlength, hcount⟩ := bytesReceived_of_collecting h hp hk sdi 7
  unfold State.byteReceived at hx
  simp only [hbytes] at hx
  split at hx
  · next i hi =>
    obtain ⟨c, hcode⟩ := Option.isSome_iff_exists.1 (decodeCommand_code hi)
    obtain ⟨o, ho, hleaves⟩ :=
      exec_taken (s := { s with sckHigh := true, port := s.port.sample sdi 7 k }) hcode (by exact hc)
    cases ho.symm.trans hx
    exact portLaw_answered hleaves (by exact hc) ha
  · next hnone =>
    split at hx
    · next hsome =>
      obtain ⟨n, hn⟩ := Option.isSome_iff_exists.1 hsome
      have hne : args.length ≠ n := fun he => decodeCommand_complete _ (he ▸ hn) hnone
      have hlt : args.length < n := lt_of_le_of_ne (hcount n hn) hne
      cases hx
      exact { h with
        deselected := by simp [Port.sample, hp]
        position := by simp [Port.sample]
        bits := by simp [Port.sample]
        idle := by simp [Port.sample, hp]
        collecting := fun _ => .inr ⟨code, args, n, rfl, rfl, hn, hlt, by simp [Port.sample, hlength]⟩
        arguments := by simp [Port.sample, hp]
        code := by simp [Port.sample, hp] }
    · next hnot => exact unknownCommandCode_portLaw (by exact ha) (by exact hc) (by simpa using hnot) hx

/-- A falling edge that begins a byte position while a response is sent (R174, R181, R184). -/
theorem byteBegins_portLaw {s t : State} {r : Response} {k : Nat} (h : s.PortLaw) (hr : s.port.response = some r)
    (hx : s.byteBegins r k = .next t) : t.PortLaw := by
  unfold State.byteBegins at hx
  split at hx
  · exact softResetAction_portLaw h hx
  · split at hx
    · next hstream =>
      obtain ⟨hcode, hargs, ha, hreset, hn⟩ := portLaw_stream h hr hstream.1
      cases hx
      constructor <;> simp [hargs, ha, hcode, hreset, hr, hn, hstream.1]
      exacts [by simpa using h.position, h.bits]
    · split at hx
      · exact streamRecordCopy_portLaw h hx
      · cases hx
        exact h

theorem takeEdge_keeps_portLaw {e : PinEdge} {s t : State} (h : s.PortLaw) (hx : s.takeEdge e = .next t) : t.PortLaw := by
  have hpins : ∀ {u : State}, u.port = s.port → u.inReset = s.inReset → (.next u : Host.Outcome State Fault Refusal) = .next t →
      t.PortLaw := fun hp hr hu => by
    cases hu
    exact portLaw_congr hp hr h
  cases e <;> simp only [State.takeEdge] at hx
  case selectFall => exact exec_keeps_portLaw h hx
  case selectRise => split at hx <;> exact exec_keeps_portLaw h hx
  case profileWp => exact hpins (by rfl) (by rfl) hx
  case sckRise sdi =>
    split at hx
    · exact hpins (by rfl) (by rfl) hx
    · unfold State.sckRises at hx
      split at hx
      · next n k hdriven hn hk =>
        have hdriven' := (sdoDriven_iff s).1 hdriven
        split at hx
        · next hbyte =>
          cases hx
          exact portLaw_sample (s := s) h hn hk hbyte
        · next hbyte =>
          obtain ⟨hle, hp⟩ : ¬ n < 7 ∧ s.port.phase = .collecting := by simpa using hbyte
          obtain rfl : n = 7 := by
            have := h.bits n hn
            omega
          exact byteReceived_portLaw h ((collecting_iff s).2 ⟨hdriven'.1, hp⟩) hk hx
      · exact hpins (by rfl) (by rfl) hx
  case sckFall =>
    split at hx
    · unfold State.sckFalls at hx
      split at hx
      · next r k _ hr _ _ => exact byteBegins_portLaw (portLaw_congr (s := s) (by rfl) (by rfl) h) hr hx
      · exact hpins (by rfl) (by rfl) hx
    · exact hpins (by rfl) (by rfl) hx

/-- Settles O57: the links' law is kept by every effect on the records; the port's law by every command and by every edge at the
pins. -/
theorem linkAndPortLawsKept : Obligations.LinkAndPortLawsKept := by
  unfold Obligations.LinkAndPortLawsKept
  refine fun s t h => ⟨step_keeps_linkLaw h, fun hs => ?_⟩
  rcases step_cases h with ⟨c, rest, _, hx⟩ | ⟨_, e, _, hx⟩ | ⟨_, _, e, rest, _, hx⟩ | ⟨_, _, _, rfl⟩
  · exact exec_keeps_portLaw (portLaw_congr (s := s) (by rfl) (by rfl) hs) hx
  · exact exec_keeps_portLaw hs hx
  · exact takeEdge_keeps_portLaw (portLaw_congr (s := s) (by rfl) (by rfl) hs) hx
  · exact portLaw_congr (by simp) (by simp) hs

end Sys2Proof.Proofs
end

section
/-! PROOFS. A step on an empty queue, the state after reset, and how the port answers a command; the statements O1, O2, O4, O5, O6,
O7 and O8. -/

namespace Sys2Proof.Proofs

open Sys2Proof.Machine Sys2Proof.Laws

/-! ### Steps -/

/-- Settles O1: the queue is taken from the front, and exec runs on its rest. -/
theorem stepRunsFrontCommand : Obligations.StepRunsFrontCommand := by
  unfold Obligations.StepRunsFrontCommand
  intro c rest s
  rfl

theorem stampDiff_neg_of_not_reached {p now : Stamp} (h : reached p now = false) : stampDiff now p < 0 := by
  simpa [reached] using h

/-- A timer that is not due lies in the future. -/
theorem stampDiff_neg_of_not_due {timer : Option Stamp} {now p : Stamp} (h : timerDue timer now = false)
    (hp : timer = some p) : stampDiff now p < 0 := by
  simpa [timerDue, hp, reached] using h

/-- No event is due outside a full reset exactly when no timer and no save is, no gun to be accepted, and no event of a link. -/
theorem dueEvent_none {s : State} (hr : s.inReset = false) (h : s.dueEvent = none) :
    timerDue s.heat.pulseEnd s.trackTime = false ∧ s.saveDue = false ∧ timerDue s.gun.lockoutEnd s.trackTime = false ∧
      s.acceptanceDue = false ∧ (s.heat.state = .watch → timerDue s.heat.closeTime s.trackTime = false) ∧
      (s.heat.state = .running → timerDue s.heat.deadlineTime s.trackTime = false) := by
  unfold State.dueEvent at h
  rw [if_neg (by simp [hr])] at h
  split at h; · cases h
  next hpulse =>
  split at h; · cases h
  next hsave =>
  split at h; · cases h
  next hlockout =>
  split at h; · cases h
  next hgun =>
  split at h
  · next ha => simp [h] at ha
  split at h
  · next hb => simp [h] at hb
  split at h; · cases h
  next hclose =>
  split at h; · cases h
  next hdeadline =>
  simp only [Bool.not_eq_true, not_and] at *
  exact ⟨hpulse, hsave, hlockout, hgun, hclose, hdeadline⟩

/-- A due event is no full reset. -/
theorem dueEvent_ne_fullReset {s : State} {e : Instr} (h : s.dueEvent = some e) : e ≠ .fullReset := by
  rintro rfl
  unfold State.dueEvent State.linkEventDue at h
  repeat' split at h
  all_goals cases h

theorem takeEdge_trackTime {s t : State} {e : PinEdge} (h : s.takeEdge e = .next t) : t.trackTime = s.trackTime := by
  rcases takeEdge_effect _ h with ⟨p, sck, wp, rfl⟩ | ⟨i, p, sck, hi, _, hx⟩
  · rfl
  · have hne : i ≠ .fullReset := by
      rintro rfl
      simp [PortEvent, Instr.code] at hi
    obtain ⟨u, hu, _, _, htime⟩ := exec_next i { s with port := p, sckHigh := sck }
    cases hu.symm.trans hx
    exact htime hne

/-- Track time moves on the empty queue only while no event is due and no full reset lasts. -/
theorem step_moves_time {s t : State} (hp : s.pending = []) (h : step s = .next t) (ht : t.trackTime ≠ s.trackTime) :
    s.inReset = false ∧ s.dueEvent = none := by
  rcases step_cases h with ⟨c, rest, hc, _⟩ | ⟨_, e, he, hx⟩ | ⟨_, _, e, rest, _, hx⟩ | ⟨_, hdue, _, rfl⟩
  · simp [hp] at hc
  · obtain ⟨u, hu, _, _, htime⟩ := exec_next e s
    cases hu.symm.trans hx
    exact absurd (htime (dueEvent_ne_fullReset he)) ht
  · exact absurd (takeEdge_trackTime hx) ht
  · refine ⟨?_, hdue⟩
    rw [← Bool.not_eq_true]
    exact fun hr => ht (by simp [State.passUnit, hr])

/-- Settles O2: the cases of a step, and what no due event says of each timer. -/
theorem stepOnEmptyQueue : Obligations.StepOnEmptyQueue := by
  unfold Obligations.StepOnEmptyQueue
  refine ⟨fun s hp => ⟨fun e he => ?_, fun e rest hdue hedges => ?_, fun hdue hedges hr => ?_, fun hedges hr => ?_⟩,
    fun s t hp h ht => ?_⟩
  · simp [step, hp, he]
  · simp [step, hp, hdue, hedges]
  · simp [step, hp, hdue, hedges, State.passUnit, hr, stampAdd]
  · simp [step, hp, hedges, State.dueEvent, State.passUnit, hr]
  · obtain ⟨hr, hdue⟩ := step_moves_time hp h ht
    obtain ⟨hpulse, hsave, hlockout, hgun, hclose, hdeadline⟩ := dueEvent_none hr hdue
    refine ⟨fun p => stampDiff_neg_of_not_due hpulse, fun p => stampDiff_neg_of_not_due hlockout,
      fun hw p => stampDiff_neg_of_not_due (hclose hw), fun hw p => stampDiff_neg_of_not_due (hdeadline hw),
      fun hl q hq => ?_, fun image since hs => ?_⟩
    · exact stampDiff_neg_of_not_reached (p := stampAdd q.edge q.period)
        (by simpa [State.acceptanceDue, hq, State.qualified, hl] using hgun)
    · exact stampDiff_neg_of_not_reached (p := stampAdd since Config.saveLimit) (by simpa [State.saveDue, hs] using hsave)

/-! ### The state after reset -/

theorem reset_lane (i : LaneNo) : State.reset.lanes[i] = Lane.cleared := by simp [State.reset]

/-- Settles O4: the reset state is computed field by field. -/
theorem resetValues : Obligations.ResetValues := by
  unfold Obligations.ResetValues
  refine ⟨rfl, reset_lane, rfl, rfl, rfl, rfl, rfl, rfl, rfl, fun l => ?_, rfl, by decide, by decide, rfl, rfl,
    fun k => by simp [State.reset, Settings.defaults], rfl, rfl⟩
  cases l <;> exact ⟨rfl, rfl, rfl, rfl, rfl, by decide, rfl, rfl, rfl, rfl⟩

theorem reset_entry (i : LaneNo) : State.reset.lanes[i].entry = none := by rw [reset_lane]; rfl

theorem reset_not_entered {i : LaneNo} {e : Entry} (h : State.reset.lanes[i].entry = some e) : False := by
  rw [reset_entry] at h
  cases h

theorem reset_link (l : LinkId) : State.reset.link l = LinkRx.afterReset (Settings.defaults.enabled l) false := by
  cases l <;> simp [State.link, State.reset, Settings.enabled, Settings.defaults, Settings.first] <;> decide

/-- Settles O5: in the state after reset the heat is idle, every lane is cleared and nothing else stands. -/
theorem lawsAtReset : Obligations.LawsAtReset := by
  unfold Obligations.LawsAtReset
  have hnone : ∀ {α : Type} {P : α → Prop} {o : Option α}, o = none → ∀ x, o = some x → P x := by
    rintro _ _ _ rfl _ h
    cases h
  have hearly : State.reset.heat.state.early := .inl rfl
  refine ⟨(settingsLaw_iff _).2 ⟨defaults_legal, by simp [State.reset]⟩, fun i e he => ?_, ?_, ?_, ?_, ?_, ?_, ?_, ?_, ?_, ?_, ?_,
    ?_, ?_, ?_, ?_, ?_⟩
  · exact (reset_not_entered he).elim
  · exact ⟨.nil, by simp [State.reset], fun b i => by simp [State.reset, Lane.cleared]⟩
  · exact ⟨fun i h => (by rw [reset_entry] at h; cases h), fun _ => reset_entry, fun i _ => (by rw [reset_lane]; exact ⟨rfl, rfl, rfl, rfl⟩)⟩
  · constructor <;> simp [State.reset, Heat.cleared, HeatState.early, HeatState.inAttempt, HeatState.stood, reviewState]
  · exact ⟨fun i e he => (reset_not_entered he).elim, by simp [State.reset, Heat.cleared]⟩
  · constructor <;> simp [State.reset, Heat.cleared, Lane.cleared]
  · constructor <;> simp [State.reset]
  · exact hnone rfl
  · refine ⟨fun i rt h => ?_, fun i e r he => ?_, fun i e he => ?_, by simp [State.reset]⟩
    · rw [reset_lane] at h
      cases h
    · exact (reset_not_entered he).elim
    · exact (reset_not_entered he).elim
  · exact ⟨fun _ i => by rw [reset_lane]; rfl, fun h => absurd hearly h⟩
  · rw [countLaw_iff]
    exact ⟨fun i => by rw [reset_lane]; exact blockForce_cleared, fun h => absurd hearly h⟩
  · rw [permitLaw_iff, permitConditions_outside (by simp [State.reset, Heat.cleared])]
    rfl
  · exact hnone rfl
  · constructor <;> simp [State.reset]
  · intro l
    rw [reset_link]
    exact linkLaw_afterReset Settings.defaults l false
  · exact portLaw_deselected (p := Port.afterReset) rfl rfl

/-! ### Answers -/

theorem refusal_iff (r : ResultCode) : r.refusal = true ↔ r ≠ .done ∧ r ≠ .clamped := by cases r <;> simp [ResultCode.refusal]

theorem resultValue_inj {r q : ResultCode} (h : r.value = q.value) : r = q := by
  cases r <;> cases q <;> first | rfl | (exact absurd h (by decide))

theorem answered_rest (k : Byte) (n : Nat) (o : Owned) :
    { State.answered k n o with port := o.1.port, notices := o.1.notices } = o.1 := by
  simp

/-- Settles O6: the port as it answers, byte position by byte position. -/
theorem portAnswers : Obligations.PortAnswers := by
  unfold Obligations.PortAnswers
  refine ⟨fun k n t a => ⟨_, rfl, ?_⟩, fun p j hp => ?_, fun r => by cases r <;> decide,
    fun r q h => resultValue_inj h, fun s => sdoDriven_iff s⟩
  · rw [answered_port k n (t, a)]
    refine ⟨rfl, rfl, rfl, rfl, rfl, rfl, by simp [Port.answering], rfl, fun h => by simp [Port.answering, h],
      fun h => if_neg (by simpa using h), by simp [Port.byteSent, Port.answering], fun j => ?_, fun x => ?_, by simp, by simp,
      answered_rest k n (t, a)⟩
    · have hne : n + 2 + j ≠ n + 1 := by omega
      simp [Port.byteSent, Port.answering, hne]
    · rw [answered_notices, raiseIf_event, refusal_iff]
      tauto
  · rcases hp with hp | ⟨c, hp⟩ <;> simp [Port.byteSent, hp]

end Sys2Proof.Proofs
end

section
/-! PROOFS. How port commands are taken, transactions begin and end, and the two resets; the statements O7, O8, O9 and O10. -/

namespace Sys2Proof.Proofs

open Sys2Proof.Machine Sys2Proof.Laws

/-! ### Port commands -/

theorem levelResult_ne_framing (b : Byte) : levelResult b ≠ .framing := by
  unfold levelResult
  split <;> simp

/-- No owner answers FRAMING, which only a discarded transaction leaves (R179). -/
theorem exec_owner_not_framing {i : Instr} {k : Byte} (hk : i.code = some k) (s : State) :
    ∃ owner, exec i s = s.receive i owner ∧ (owner s).2.result ≠ .framing := by
  cases i <;> first | (cases hk; done) | refine ⟨_, by simp only [exec]; rfl, ?_⟩
  all_goals
    simp only [ownReadStatus, ownResetEnable, ownSoftReset, ownTakeNotice, ownNoticeDone, ownClearNotice, ownSetNoticeLevel,
      ownReadNotices, ownReadSetting, ownWriteSetting, ownSaveProfile, ownLoadProfile, ownOpenHeat, ownCloseHeat, ownEnterLane,
      ownVacateLane, ownWithdrawLane, ownFindBib, ownReadLane, ownReadRoster, ownReadHeat, ownReadAttempt, ownCallMarks,
      ownCallSet, ownStandUp, ownRecall, ownImposeCharge, ownRescindCharge, ownRescindFieldWarning, ownReadLink]
    (repeat' split) <;> simp [State.refuse, State.succeed, State.answerRead, Answer.just, Answer.ok, Answer.read,
      levelResult_ne_framing]

theorem code_resetEnable {i : Instr} {k : Byte} (hk : i.code = some k) : k = 0x02 ↔ i = .resetEnable := by
  cases i <;> first | (cases hk; done) | (cases hk; simp)

theorem code_readStatus {i : Instr} {k : Byte} (hk : i.code = some k) : k = 0x01 ↔ i = .readStatus := by
  cases i <;> first | (cases hk; done) | (cases hk; simp)

/-- The port as it was before its command was taken, but for an armed soft reset. -/
theorem leaves_lastResult {k : Byte} {s : State} {o : Owned} (h : OwnerLeaves k s o) :
    o.1.port.lastResult = s.port.lastResult := by
  rcases h.port with hp | ⟨_, _, _, hp⟩ <;> rw [hp]

/-- Settles O7: a collected command is answered by its owner, and no owner answers FRAMING. -/
theorem portCommandsAreTaken : Obligations.PortCommandsAreTaken := by
  unfold Obligations.PortCommandsAreTaken
  refine fun i k s hk => ⟨fun hc => ?_, exec_uncollected hk⟩
  obtain ⟨owner, hx, hframing⟩ := exec_owner_not_framing hk s
  obtain ⟨o, ho, hleaves⟩ := exec_taken hk hc
  have hsame := Host.Outcome.next.inj (ho.symm.trans (hx.trans (receive_taken s hk hc)))
  have hanswer := congrArg (fun t => t.port.response.map Response.result) hsame
  have hresult : o.2.result = (owner s).2.result := by simpa [Port.answering] using hanswer
  have hport := answered_port k i.argumentBytes.length o
  refine ⟨_, _, ho, by rw [hport]; rfl, by rw [hport]; rfl, by rw [hport]; rfl, rfl, hresult ▸ hframing, ?_, ?_⟩
  · rw [hport, ← code_resetEnable hk]
    simp [Port.answering]
  · rw [hport, ← leaves_lastResult hleaves]
    simp [Port.answering, ← code_readStatus hk]

/-! ### Transactions -/

theorem argumentCount_none {code : Byte} (h : ∀ i : Instr, i.code ≠ some code) : argumentCount code = none := by
  rw [← Option.not_isSome_iff_eq_none, argumentCount_isSome]
  exact fun ⟨i, hi⟩ => h i hi

theorem discard_event (s : State) (x : NoticeSource) :
    s.discard.notices.events[x.index] = true ↔ s.notices.events[x.index] = true ∨ x = .commandError := by
  unfold State.discard
  rw [raise_event, withPort_notices]

/-- What the rise of select makes of a state with nothing armed, by the phase (R178, R179). -/
theorem selectRise_unarmed {s : State} (hr : s.inReset = false) (ha : s.port.softArmed = false) :
    (s.port.phase = .deselected → s.selectRise = s) ∧
      (s.port.phase = .collecting ∨ s.port.phase = .ignoring .unknownCode → s.selectRise = s.discard) ∧
      (s.port.phase = .answering ∨ s.port.phase = .streaming ∨ s.port.phase = .ignoring .softReset ∨
          s.port.phase = .ignoring .fullReset → s.selectRise = s.withPort s.port.deselect) := by
  unfold State.selectRise
  refine ⟨fun hp => by simp [hp], fun hp => ?_, fun hp => ?_⟩
  · rcases hp with hp | hp <;> simp [hp, hr]
  · rcases hp with hp | hp | hp | hp <;> simp [hp, hr, ha]

/-- Settles O8: each edge of select by the phase of the port. -/
theorem transactions : Obligations.Transactions := by
  unfold Obligations.Transactions
  refine ⟨fun s => ⟨fun hr hp => ?_, fun h => ?_⟩, fun code s hc => ⟨fun hn => ?_, fun ⟨i, hi⟩ => ?_⟩, fun code s hc => ?_,
    fun s hr => ?_, fun s hr ha => ⟨s.selectRise, rfl, rfl, ?_, fun hp => ?_, ?_⟩⟩
  · simp only [exec, execTransactionStart]
    rw [if_pos (by simp [hr, hp])]
    rfl
  · simp only [exec, execTransactionStart]
    rw [if_neg (by rcases h with h | h <;> simp [h])]
  · simp only [exec, execUnknownCommandCode]
    rw [if_pos (by simp [hc, argumentCount_none hn])]
    rfl
  · simp only [exec, execUnknownCommandCode]
    rw [if_neg (by simp [Option.isSome_iff_ne_none.1 ((argumentCount_isSome code).2 ⟨i, hi⟩)])]
  · simp only [exec, execUnknownCommandCode]
    rw [if_neg (by simp [hc])]
  · have hrise : s.selectRise = s := by simp [State.selectRise, hr]
    exact ⟨congrArg Host.Outcome.next hrise, congrArg Host.Outcome.next hrise⟩
  · exact (selectRise_unarmed hr ha).1
  · rw [(selectRise_unarmed hr ha).2.1 hp]
    exact ⟨discard_port s, discard_event s, rfl, rfl, rfl⟩
  · exact (selectRise_unarmed hr ha).2.2

/-! ### The soft reset -/

theorem isSaving_iff (p : ProfileState) : p.isSaving = true ↔ ∃ image since, p = .saving image since := by
  cases p <;> simp [ProfileState.isSaving]

theorem cleared_event (x : NoticeSource) : Notices.cleared.events[x.index.val] = false := by simp [Notices.cleared]

theorem softReset_event (s : State) (x : NoticeSource) :
    s.softReset.notices.events[x.index] = true ↔ x = .profileBad ∧ imageAccepted s.nvm = false := by
  unfold State.softReset State.softResetBlocks State.loadProfile
  rw [withPort_notices, raiseIf_event]
  simp [cleared_event, and_comm]

theorem softReset_levels (s : State) :
    s.softReset.notices.levels = Notices.cleared.levels ∧ s.softReset.notices.ceiling = Notices.cleared.ceiling := by
  unfold State.softReset State.softResetBlocks State.loadProfile
  rw [withPort_notices, raiseIf_levels, raiseIf_ceiling]
  exact ⟨rfl, rfl⟩

theorem softReset_actions {s : State} (hr : s.inReset = false) (ha : s.port.softArmed = true)
    (hp : s.port.phase = .answering ∨ s.port.phase = .streaming) :
    s.selectRise = s.softReset.withPort s.softReset.port.deselect ∧
      exec (.softResetAction .resultByteEnd) s = .next s.softReset.ignoreRest ∧
      exec (.softResetAction .selectRise) s = .next s.selectRise := by
  refine ⟨?_, by simp [exec, execSoftResetAction, hr, ha], by simp [exec, execSoftResetAction, hr, ha]⟩
  unfold State.selectRise
  rcases hp with hp | hp <;> simp [hp, hr, ha]

/-- Settles O9: the soft reset is armed by its command and acts at the first of its two moments. -/
theorem softReset : Obligations.SoftReset := by
  unfold Obligations.SoftReset
  refine ⟨fun s hc => ⟨?_, fun hl => ?_, fun hl hs => ?_, fun hl hs => ?_⟩, fun s hr ha hp => ?_, fun m s h => ?_⟩
  · exact (exec_resetEnable s).trans (receive_eq hc rfl rfl rfl)
  · exact (exec_softReset s).trans (receive_eq hc rfl rfl (by simp [ownSoftReset, hl, State.refuse, Answer.just]))
  · exact (exec_softReset s).trans
      (receive_eq hc rfl rfl (by simp [ownSoftReset, hl, (isSaving_iff _).2 hs, State.refuse, Answer.just]))
  · have hsaving : s.profile.isSaving = false := by
      rw [← Bool.not_eq_true, isSaving_iff]
      exact fun ⟨image, since, h⟩ => hs image since h
    exact (exec_softReset s).trans
      (receive_eq hc rfl rfl (by simp [ownSoftReset, hl, hsaving, State.succeed, Answer.ok, State.withPort]))
  · obtain ⟨hrise, hend, hselect⟩ := softReset_actions hr ha hp
    refine ⟨_, _, hend, hselect.trans (congrArg _ hrise), congrArg Host.Outcome.next hrise, by simp [State.ignoreRest],
      by simp [Port.deselect], by simp [State.ignoreRest, State.withPort], fun i => by simp, by simp, by simp, by simp [Heat.cleared],
      by simp, by simp [State.loadedSettings], by simp [State.loadedProfile], fun l => ?_, softReset_event s,
      (softReset_levels s).1, (softReset_levels s).2, by simp, by simp, by simp [hr], by simp, by simp, by simp, by simp, by simp⟩
    rw [show (s.softReset.withPort s.softReset.port.deselect).link l = s.softReset.link l by cases l <;> rfl, softReset_link,
      withPort_settings, softReset_settings]
  · simp only [exec, execSoftResetAction]
    rw [if_pos (by rcases h with h | h <;> simp [h])]

/-! ### The full reset -/

theorem fullReset_event (s : State) (x : NoticeSource) :
    s.fullReset.notices.events[x.index] = true ↔ x = .profileBad ∧ imageAccepted s.fullReset.nvm = false := by
  unfold State.fullReset
  rw [raiseIf_event, raiseIf_nvm]
  simp [cleared_event, and_comm]

/-- Of a save that is cut, each byte is written or not (R193). -/
theorem nvmAtReset_saving {s : State} {image : Image} {since : Stamp} (h : s.profile = .saving image since) (j : Fin 82) :
    s.nvmAtReset[j] = image[j] ∨ s.nvmAtReset[j] = s.nvm[j] := by
  rw [Fin.getElem_fin]
  simp only [State.nvmAtReset, h, Vector.getElem_ofFn]
  split
  · exact .inl rfl
  · exact .inr rfl

theorem fullReset_nvm (s : State) : s.fullReset.nvm = s.nvmAtReset := by simp [State.fullReset]

theorem fullReset_kept {s : State} (h : ∀ image since, s.profile ≠ .saving image since) :
    s.nvmAtReset = s.nvm ∧ s.fullReset.freeCount = s.freeCount := by
  have hsaving : s.profile.isSaving = false := by
    rw [← Bool.not_eq_true, isSaving_iff]
    exact fun ⟨image, since, hs⟩ => h image since hs
  refine ⟨?_, by simp [State.fullReset, hsaving]⟩
  unfold State.nvmAtReset
  split
  · next image since hs => exact absurd hs (h image since)
  · rfl

theorem fullReset_link (s : State) (l : LinkId) :
    s.fullReset.link l = LinkRx.afterReset (s.fullReset.settings.enabled l) (s.link l).lineHigh := by
  cases l <;> simp [State.fullReset, State.link]

/-- Settles O10: a full reset writes every field, and its end reads the level of select. -/
theorem fullReset : Obligations.FullReset := by
  unfold Obligations.FullReset
  refine ⟨fun s => ⟨s.fullReset, rfl, by simp [State.fullReset], by simp [State.fullReset],
      by simp [State.fullReset, Port.afterReset], fun i => by simp [State.fullReset], by simp [State.fullReset],
      by simp [State.fullReset], by simp [State.fullReset, Heat.cleared], by simp [State.fullReset], fun h => ?_,
      fun image since h j => ?_, by simp [State.fullReset, State.loadedSettings], by simp [State.fullReset, State.loadedProfile],
      fun l => ?_, fullReset_event s, by simp [State.fullReset, Notices.cleared, Notices.defaultLevels],
      by simp [State.fullReset, Notices.cleared], by simp [State.attn, State.fullReset], by simp [State.fullReset],
      by simp [State.fullReset], by simp [State.fullReset], by simp [State.fullReset]⟩,
    fun s hr => ⟨?_, ?_⟩, fun high s hr => ?_⟩
  · rw [fullReset_nvm]
    exact fullReset_kept h
  · rw [fullReset_nvm]
    exact nvmAtReset_saving h j
  · rw [fullReset_link]
    by_cases h0 : s.fullReset.settings.first l = 0 <;> simp [LinkRx.afterReset, Settings.enabled, h0]
  · simp [exec, execFullResetEnd, hr]
  · simp [exec, execFullResetEnd, hr, State.withPort]
  · simp [exec, execFullResetEnd, hr]

end Sys2Proof.Proofs
end

section
/-! PROOFS. The reads and their streams, the winning notice, and the commands of the settings; the statements O11, O12, O14 and
O17. -/

namespace Sys2Proof.Proofs

open Sys2Proof.Machine Sys2Proof.Laws

/-! ### Reads -/

/-- Lane numbers are counted modulo 10. -/
theorem laneNumber_succ (i : LaneNo) : laneNumber (i + 1) = if laneNumber i = 10 then 1 else laneNumber i + 1 := by
  revert i
  decide

theorem parseLink_none {x : Byte} (h : 1 < x.toNat) : parseLink x = none := by
  unfold parseLink
  rw [if_neg (by rintro rfl; simp at h), if_neg (by rintro rfl; simp at h)]

theorem parseClear_none {x : Byte} (h : 1 < x.toNat) : parseClear x = none := by
  unfold parseClear
  rw [if_neg (by rintro rfl; simp at h), if_neg (by rintro rfl; simp at h)]

theorem parseLink_some {x : Byte} {l : LinkId} (h : x = if l = .a then 0 else 1) : parseLink x = some l := by
  subst h
  cases l <;> rfl

theorem ownReadLink_refused {link clear : Byte} (h : 1 < link.toNat ∨ 1 < clear.toNat) (s : State) :
    ownReadLink link clear s = (s, ⟨.badArgument, [], none⟩) := by
  unfold ownReadLink
  rcases h with h | h
  · rw [parseLink_none h]
    rfl
  · rw [parseClear_none h]
    cases parseLink link <;> rfl

/-- Settles O11: each read is a taken command with a copy and no effect. -/
theorem readCommands : Obligations.ReadCommands := by
  unfold Obligations.ReadCommands
  refine ⟨fun s hc => ⟨?_, ?_, ?_, fun r hr => ?_, fun hr => ?_⟩, fun lane s hc => ⟨fun i hi => ⟨?_, i + 1, laneNumber_succ i, ?_⟩,
    fun h => ⟨?_, ?_⟩⟩, fun link clear s hc => ⟨fun h => ?_, fun l hl => ⟨?_, ?_⟩⟩⟩
  · exact (exec_readStatus s).trans (receive_eq hc rfl rfl rfl)
  · exact (exec_readNotices s).trans (receive_eq hc rfl rfl rfl)
  · exact (exec_readHeat s).trans (receive_eq hc rfl rfl rfl)
  · exact (exec_readAttempt s).trans (receive_eq hc rfl rfl (by simp [ownReadAttempt, hr, State.answerRead, Answer.read]))
  · exact (exec_readAttempt s).trans (receive_eq hc rfl rfl (by simp [ownReadAttempt, hr, State.refuse, Answer.just]))
  · exact (exec_readLane lane s).trans (receive_eq hc rfl rfl
      (by rw [ownReadLane, parseLane_some hi]; rfl))
  · exact (exec_readRoster lane s).trans (receive_eq hc rfl rfl
      (by rw [ownReadRoster, parseLane_some hi]; rfl))
  · exact (exec_readLane lane s).trans (receive_eq hc rfl rfl (by rw [ownReadLane, parseLane_none h]; rfl))
  · exact (exec_readRoster lane s).trans (receive_eq hc rfl rfl (by rw [ownReadRoster, parseLane_none h]; rfl))
  · exact (exec_readLink link clear s).trans (receive_eq hc rfl rfl (ownReadLink_refused h s))
  · rintro rfl
    exact (exec_readLink link 0 s).trans (receive_eq hc rfl rfl (by rw [ownReadLink, parseLink_some hl]; rfl))
  · rintro rfl
    refine ⟨s.withLink l { s.link l with checkFailures := 0, seqFaults := 0, losses := 0 },
      (exec_readLink link 1 s).trans (receive_eq hc rfl rfl (by rw [ownReadLink, parseLink_some hl]; rfl)), ?_, fun o ho => ?_, ?_⟩
    · rw [withLink_link, if_pos rfl]
    · rw [withLink_link, if_neg ho]
    · cases l <;> rfl

/-- Settles O12: a stream copies its record as it stands and moves to the next. -/
theorem streamsCopyTheNextRecord : Obligations.StreamsCopyTheNextRecord := by
  unfold Obligations.StreamsCopyTheNextRecord
  intro s r hr hresponse
  refine ⟨fun hs => ?_, fun i hs => ⟨i + 1, laneNumber_succ i, ?_⟩, fun hs => ?_⟩
  all_goals
    simp only [exec, execStreamRecordCopy]
    rw [if_neg (by simp [hr])]
    simp only [hresponse, hs]
  · rfl
  · rfl

/-! ### The winner -/

theorem allSources_ascending : allSources.Pairwise fun x y => x.index < y.index := by decide

/-- The first source of a list in index order that passes a test has the least index of those that pass. -/
theorem find_index_le {p : NoticeSource → Bool} {x y : NoticeSource} (h : allSources.find? p = some x) (hy : p y = true) :
    x.index ≤ y.index := by
  obtain ⟨_, before, after, heq, hbefore⟩ := List.find?_eq_some_iff_append.1 h
  have hsorted := heq ▸ allSources_ascending
  have hmem : y ∈ before ++ x :: after := heq ▸ mem_allSources y
  rcases List.mem_append.1 hmem with hm | hm
  · exact absurd hy (by simpa using hbefore y hm)
  · rcases List.mem_cons.1 hm with rfl | hm
    · exact le_rfl
    · exact le_of_lt ((List.pairwise_cons.1 (List.pairwise_append.1 hsorted).2.1).1 y hm)

/-- Of the sources of the winner's level that qualify, the winner has the least order number (R166). -/
theorem winner_index_le {s : State} {x y : NoticeSource} (h : s.winner = some x) (hy : s.qualifies y = true)
    (hlevel : s.noticeLevel x = s.noticeLevel y) : x.index ≤ y.index := by
  obtain ⟨_, v, _, _, hfound, _⟩ := List.findSome?_eq_some_iff.1 h
  have hx := List.find?_some hfound
  obtain ⟨_, hv⟩ : s.qualifies x = true ∧ s.noticeLevel x = v := by simpa only [Bool.and_eq_true, beq_iff_eq] using hx
  exact find_index_le hfound (by simp [hy, ← hlevel, hv])

theorem winner_none_iff {s : State} : s.winner = none ↔ ∀ y, s.qualifies y ≠ true := by
  refine ⟨fun h y hy => ?_, winner_eq_none⟩
  have hlevel := List.findSome?_eq_none_iff.1 h (s.noticeLevel y) (List.mem_finRange _)
  exact List.find?_eq_none.1 hlevel y (mem_allSources y) (by simp [hy])

/-- The winner qualifies, and no source that qualifies beats it by its level or, at its level, by its order number (R166). -/
theorem winner_iff {s : State} {x : NoticeSource} : s.winner = some x ↔ s.qualifies x = true ∧
    ∀ y, s.qualifies y = true → s.noticeLevel x < s.noticeLevel y ∨ s.noticeLevel x = s.noticeLevel y ∧ x.index ≤ y.index := by
  have hbest : ∀ {w}, s.winner = some w → ∀ y, s.qualifies y = true →
      s.noticeLevel w < s.noticeLevel y ∨ s.noticeLevel w = s.noticeLevel y ∧ w.index ≤ y.index := fun {w} hw y hy => by
    rcases lt_or_eq_of_le ((winner_eq_some hw).2 y hy) with h | h
    · exact .inl h
    · exact .inr ⟨h, winner_index_le hw hy h⟩
  refine ⟨fun h => ⟨(winner_eq_some h).1, hbest h⟩, fun ⟨hx, hleast⟩ => ?_⟩
  obtain ⟨w, hw⟩ := Option.ne_none_iff_exists'.1 fun hnone => winner_none_iff.1 hnone x hx
  have hwx := hbest hw x hx
  have hxw := hleast w (winner_eq_some hw).1
  have hindex : w.index = x.index := by
    rcases hwx with h | ⟨_, h⟩ <;> rcases hxw with k | ⟨k, j⟩
    · exact absurd h (not_lt_of_gt k)
    · exact absurd h (k ▸ lt_irrefl _)
    · next he => exact absurd k (he ▸ lt_irrefl _)
    · exact le_antisymm h j
  rw [hw, index_inj.1 hindex]

theorem attn_iff {s : State} : s.attn = true ↔ s.inReset = false ∧ ∃ x, s.qualifies x = true := by
  simp only [State.attn, Bool.and_eq_true, Bool.not_eq_true', List.any_eq_true]
  exact and_congr_right fun _ => ⟨fun ⟨x, _, hx⟩ => ⟨x, hx⟩, fun ⟨x, hx⟩ => ⟨x, mem_allSources x, hx⟩⟩

/-- Settles O14: the search by level and order number finds the least qualifying source. -/
theorem winnerIsMostUrgent : Obligations.WinnerIsMostUrgent := by
  unfold Obligations.WinnerIsMostUrgent
  intro s
  refine ⟨fun x => ?_, ?_, ?_⟩
  · simp only [winner_iff, qualifies_iff, and_assoc, and_imp]
  · simp only [attn_iff, qualifies_iff]
  · simp only [winner_none_iff, qualifies_iff, ne_eq]

/-! ### The settings' commands -/

/-- The keys writable in ROSTER are the first fourteen (Table 11-1 note 2). -/
theorem inRoster_iff (k : Key) : settingTable[k].inRoster = true ↔ k.val < 14 := by
  revert k
  decide

theorem writableIn_iff {k : Key} {h : HeatState} : writableIn k h = true ↔ h = .idle ∨ h = .roster ∧ k.val < 14 := by
  simp only [writableIn, Bool.or_eq_true, Bool.and_eq_true, beq_iff_eq, inRoster_iff]

theorem not_saving {p : ProfileState} (h : ∀ image since, p ≠ .saving image since) : p.isSaving = false := by
  rw [← Bool.not_eq_true, isSaving_iff]
  exact fun ⟨image, since, hs⟩ => h image since hs

theorem rangeLink_of_other {k : Key} (h : k.val < 14 ∨ 17 < k.val) : Settings.rangeLink k = none := by
  unfold Settings.rangeLink
  rw [if_neg (by rintro (rfl | rfl) <;> simp at h), if_neg (by rintro (rfl | rfl) <;> simp at h)]

/-- A value that is in its key's range is not changed by the clamp (R187). -/
theorem clampTo_eq_iff {k : Key} {v : Nat} : Settings.clampTo k v = v ↔ settingTable[k].lo ≤ v ∧ v ≤ settingTable[k].hi := by
  have hrange : settingTable[k].lo ≤ settingTable[k].hi := by
    revert k
    decide
  unfold Settings.clampTo
  omega

theorem ownWriteSetting_other {v : Byte} {value : BitVec 16} {s : State} {k : Key} (hv : v.toNat = k.val + 1)
    (hw : writableIn k s.heat.state = true) (hs : s.profile.isSaving = false) (hk : Settings.rangeLink k = none) :
    ownWriteSetting v value s = (s.changeSettings (s.settings.put k (Settings.clampTo k value.toNat)),
      ⟨if settingTable[k].lo ≤ value.toNat ∧ value.toNat ≤ settingTable[k].hi then .done else .clamped, [], none⟩) := by
  unfold ownWriteSetting
  rw [parseKey_some hv]
  simp only [hw, hs, Settings.writeRefused, Settings.written, Settings.writeClamps, hk]
  by_cases h : Settings.clampTo k value.toNat = value.toNat
  · rw [if_pos (clampTo_eq_iff.1 h)]
    simp [h, Answer.just]
  · rw [if_neg (mt clampTo_eq_iff.2 h)]
    simp [h, Answer.just]

/-- Settles O17: a value is clamped to its key's range, and a refusal leaves the settings. -/
theorem settingCommands : Obligations.SettingCommands := by
  unfold Obligations.SettingCommands
  refine ⟨fun v s hc => ⟨fun k hv => ?_, fun hv => ?_⟩, fun v value s hc => ⟨fun hv => ?_, fun k hv => ⟨fun hw => ?_, fun hw =>
    ⟨fun hs => ?_, fun hs hk => ?_⟩⟩⟩⟩
  · exact (exec_readSetting v s).trans (receive_eq hc rfl rfl (by rw [ownReadSetting, parseKey_some hv]; rfl))
  · exact (exec_readSetting v s).trans (receive_eq hc rfl rfl (by rw [ownReadSetting, parseKey_none hv]; rfl))
  · exact (exec_writeSetting v value s).trans (receive_eq hc rfl rfl (by rw [ownWriteSetting, parseKey_none hv]; rfl))
  · have hnot : writableIn k s.heat.state = false := by rwa [← Bool.not_eq_true, writableIn_iff]
    exact (exec_writeSetting v value s).trans (receive_eq hc rfl rfl
      (by simp [ownWriteSetting, parseKey_some hv, hnot, State.refuse, Answer.just]))
  · exact (exec_writeSetting v value s).trans (receive_eq hc rfl rfl
      (by simp [ownWriteSetting, parseKey_some hv, writableIn_iff.2 hw, (isSaving_iff _).2 hs, State.refuse, Answer.just]))
  · refine ⟨_, (exec_writeSetting v value s).trans (receive_eq hc rfl rfl
      (ownWriteSetting_other hv (writableIn_iff.2 hw) (not_saving hs) (rangeLink_of_other hk))), ?_, fun j hj => ?_⟩
    · rw [Fin.getElem_fin, put_vals _ _ _ _ k.isLt, if_pos rfl]
      rfl
    · rw [Fin.getElem_fin, put_vals _ _ _ _ j.isLt, if_neg hj]
      rfl

end Sys2Proof.Proofs
end

section
/-! PROOFS. The settings store: writes of the link ranges, what a change of settings does, and the profile; the statements O18 to
O22. -/

namespace Sys2Proof.Proofs

open Sys2Proof.Machine Sys2Proof.Laws

/-! ### Writes of a link range key -/

/-- The key of a link's first or last lane. -/
def rangeKey (l : LinkId) (isLast : Bool) : Key := if isLast then Settings.lastKey l else if l = .a then 14 else 16

theorem rangeKey_val (l : LinkId) (isLast : Bool) :
    (rangeKey l isLast).val + 1 = (if l = .a then 15 else 17) + (if isLast then 1 else 0) := by
  cases l <;> cases isLast <;> rfl

theorem rangeLink_rangeKey (l : LinkId) (isLast : Bool) : Settings.rangeLink (rangeKey l isLast) = some l := by
  cases l <;> cases isLast <;> rfl

theorem clampTo_rangeKey (l : LinkId) (isLast : Bool) (v : Nat) : Settings.clampTo (rangeKey l isLast) v = min v 10 := by
  have hrow : settingTable[rangeKey l isLast].lo = 0 ∧ settingTable[rangeKey l isLast].hi = 10 := by
    cases l <;> cases isLast <;> decide
  rw [Settings.clampTo, hrow.1, hrow.2, Nat.zero_max]

theorem put_rangeKey_first (c : Settings) (l m : LinkId) (isLast : Bool) (v : Nat) :
    (c.put (rangeKey l isLast) v).first m = if m = l ∧ isLast = false then v else c.first m := by
  rw [put_first]
  cases l <;> cases m <;> cases isLast <;> simp [rangeKey, Settings.lastKey]

theorem put_rangeKey_last (c : Settings) (l m : LinkId) (isLast : Bool) (v : Nat) :
    (c.put (rangeKey l isLast) v).last m = if m = l ∧ isLast = true then v else c.last m := by
  rw [put_last]
  cases l <;> cases m <;> cases isLast <;> simp [rangeKey, Settings.lastKey]

/-- Ranges are valid when each is ordered and they share no lane (R188). -/
theorem rangesValid_iff (c : Settings) {l o : LinkId} (h : o ≠ l) : c.rangesValid = true ↔
    (c.first l ≠ 0 → c.first l ≤ c.last l) ∧ (c.first o ≠ 0 → c.first o ≤ c.last o) ∧
      (c.first l ≠ 0 → c.first o ≠ 0 → c.last l < c.first o ∨ c.last o < c.first l) := by
  simp only [Settings.rangesValid, Bool.and_eq_true, ordered_iff, apart_iff]
  cases l <;> cases o <;> simp only [ne_eq, not_true_eq_false, reduceCtorEq, not_false_eq_true] at h <;> tauto

/-- The values that a write of a link range key leaves: the link's own with the span clamped, the others as they were. -/
theorem written_rangeKey {c : Settings} {l o : LinkId} {isLast : Bool} {v f n m : Nat} (ho : o ≠ l)
    (hf : f = if isLast then c.first l else min v 10) (hn : n = if isLast then min v 10 else c.last l)
    (hm : m = if f ≠ 0 ∧ f + 5 < n then f + 5 else n) :
    (c.written (rangeKey l isLast) v).first l = f ∧ (c.written (rangeKey l isLast) v).last l = m ∧
      (c.written (rangeKey l isLast) v).first o = c.first o ∧ (c.written (rangeKey l isLast) v).last o = c.last o ∧
      (c.writeClamps (rangeKey l isLast) v = false ↔ v ≤ 10 ∧ m = n) := by
  have hfirst : (c.put (rangeKey l isLast) (min v 10)).first l = f := by
    rw [put_rangeKey_first, hf]
    cases isLast <;> simp
  have hlast : (c.put (rangeKey l isLast) (min v 10)).last l = n := by
    rw [put_rangeKey_last, hn]
    cases isLast <;> simp
  have hfits : (c.put (rangeKey l isLast) (min v 10)).spanFits l = true ↔ (f ≠ 0 → n ≤ f + 5) := by
    rw [spanFits_iff, hfirst, hlast]
  simp only [Settings.written, Settings.writeClamps, rangeLink_rangeKey, clampTo_rangeKey, clampSpan_first, clampSpan_last, hfirst,
    hlast, put_rangeKey_first, put_rangeKey_last, ho, true_and, false_and, if_false, ← Bool.not_eq_true, hfits]
  refine ⟨?_, ?_⟩
  · rw [hm]
    split <;> split <;> omega
  · rw [Bool.not_eq_true, Bool.or_eq_false_iff, bne_eq_false_iff_eq, Bool.not_eq_false', hfits, hm]
    split <;> omega

theorem written_rangeKey_other (c : Settings) (l : LinkId) (isLast : Bool) (v : Nat) {k : Key} (hk : k.val < 14 ∨ 17 < k.val) :
    (c.written (rangeKey l isLast) v).vals[k] = c.vals[k] := by
  have hne : k ≠ rangeKey l isLast ∧ k ≠ Settings.lastKey l := by
    cases l <;> cases isLast <;> constructor <;> rintro rfl <;> simp [rangeKey, Settings.lastKey] at hk
  have hput : ∀ (d : Settings) (j : Key) (x : Nat), k ≠ j → (d.put j x).vals[k] = d.vals[k] := fun d j x hj => by
    rw [Fin.getElem_fin, put_vals _ _ _ _ k.isLt, if_neg hj]
    rfl
  simp only [Settings.written, rangeLink_rangeKey]
  unfold Settings.clampSpan
  split
  · exact hput _ _ _ hne.1
  · exact (hput _ _ _ hne.2).trans (hput _ _ _ hne.1)

theorem ownWriteSetting_range {v : Byte} {value : BitVec 16} {s : State} {k : Key} (hv : parseKey v = some k)
    (hi : s.heat.state = .idle) (hs : s.profile.isSaving = false) :
    ownWriteSetting v value s =
      if s.settings.writeRefused k value.toNat then (s, ⟨.badArgument, [], none⟩)
      else (s.changeSettings (s.settings.written k value.toNat),
        ⟨if s.settings.writeClamps k value.toNat then .clamped else .done, [], none⟩) := by
  unfold ownWriteSetting
  simp only [hv, hs, writableIn_iff.2 (.inl hi)]
  rfl

/-- Settles O18: a link range is written with its span clamped and refused where the ranges meet. -/
theorem writeLinkRange : Obligations.WriteLinkRange := by
  unfold Obligations.WriteLinkRange
  intro l isLast v value s f n m o hc hi hs ho hv hf hn hm bad
  have hkey : parseKey v = some (rangeKey l isLast) := parseKey_some (hv.trans (rangeKey_val l isLast).symm)
  obtain ⟨hfirst, hlast, hofirst, holast, hclamps⟩ := written_rangeKey (c := s.settings) ho hf hn hm
  have hrefused : s.settings.writeRefused (rangeKey l isLast) value.toNat = true ↔ bad := by
    have hvalid := rangesValid_iff (s.settings.written (rangeKey l isLast) value.toNat) ho
    rw [hfirst, hlast, hofirst, holast] at hvalid
    rw [Settings.writeRefused, rangeLink_rangeKey, Option.isSome_some, Bool.true_and, Bool.not_eq_true', ← Bool.not_eq_true, hvalid]
    omega
  have hown := ownWriteSetting_range (value := value) hkey hi (not_saving hs)
  refine ⟨fun hbad => ?_, fun hgood => ⟨_, (exec_writeSetting v value s).trans (receive_eq hc rfl rfl ?_), hfirst, hlast,
    hofirst, holast, fun k => written_rangeKey_other _ _ _ _⟩⟩
  · exact (exec_writeSetting v value s).trans (receive_eq hc rfl rfl (by rw [hown, if_pos (hrefused.2 hbad)]))
  · rw [hown, if_neg (mt hrefused.1 hgood)]
    by_cases hdone : value.toNat ≤ 10 ∧ m = n
    · rw [if_pos hdone, hclamps.2 hdone]
      rfl
    · rw [if_neg hdone, if_pos (by rw [← Bool.not_eq_false, hclamps]; exact hdone)]

/-! ### What a change of the settings does -/

/-- With one range before and after, the slots whose lane changes its closure lose their sequence (R57). -/
theorem slot_closure_changed {c d : Settings} {l : LinkId} (hc : c.first l ≠ 0) (hfirst : c.first l = d.first l)
    (hlast : c.last l = d.last l) (k : Fin 6) :
    (allLanes.any fun i => (c.slotOf l i == some k || d.slotOf l i == some k) && c.closed i != d.closed i) = true ↔
      ∃ i : LaneNo, laneNumber i = d.first l + k.val ∧ laneNumber i ≤ d.last l ∧ c.closed i ≠ d.closed i := by
  rw [allLanes_any_iff]
  refine exists_congr fun i => ?_
  simp only [Bool.and_eq_true, Bool.or_eq_true, beq_iff_eq, bne_iff_ne, slotOf_eq_some, serves_iff, hfirst, hlast]
  rw [← hfirst] at *
  constructor
  · rintro ⟨⟨⟨_, _, h⟩, _, hk⟩ | ⟨⟨_, _, h⟩, _, hk⟩, hne⟩ <;> exact ⟨hk, h, hne⟩
  · rintro ⟨hk, h, hne⟩
    refine ⟨?_, hne⟩
    cases hcl : c.closed i <;> cases hdl : d.closed i
    · exact absurd (hcl.trans hdl.symm) hne
    · exact .inl ⟨⟨hc, by omega, h⟩, rfl, hk⟩
    · exact .inr ⟨⟨hc, by omega, h⟩, rfl, hk⟩
    · exact absurd (hcl.trans hdl.symm) hne

/-- A change of settings leaves a receiver's counters, last transition and line level. -/
theorem settingsChange_kept (c d : Settings) (l : LinkId) (r : LinkRx) :
    (r.settingsChange c d l).checkFailures = r.checkFailures ∧ (r.settingsChange c d l).seqFaults = r.seqFaults ∧
      (r.settingsChange c d l).losses = r.losses ∧ (r.settingsChange c d l).lastTransition = r.lastTransition ∧
      (r.settingsChange c d l).lineHigh = r.lineHigh := by
  unfold LinkRx.settingsChange
  (repeat' split) <;> exact ⟨rfl, rfl, rfl, rfl, rfl⟩

theorem enabled_of_ne {c : Settings} {l : LinkId} (h : c.first l ≠ 0) : c.enabled l = true := by simpa [Settings.enabled] using h

theorem settingsChange_enabled {c d : Settings} {l : LinkId} {r : LinkRx} (hc : c.first l ≠ 0) (hd : d.first l ≠ 0) :
    r.settingsChange c d l = if c.range l ≠ d.range l then r.clearSequences else { r with prevSeq := Vector.ofFn fun k =>
      if (allLanes.any fun i => (c.slotOf l i == some k || d.slotOf l i == some k) && c.closed i != d.closed i) then none
      else r.prevSeq[k] } := by
  unfold LinkRx.settingsChange
  rw [if_neg (by simp [enabled_of_ne hd]), if_neg (by simp [enabled_of_ne hc])]

theorem range_eq_iff {c d : Settings} {l : LinkId} (hc : c.first l ≠ 0) (hd : d.first l ≠ 0) :
    c.range l = d.range l ↔ c.first l = d.first l ∧ c.last l = d.last l := by
  simp [Settings.range, enabled_of_ne hc, enabled_of_ne hd]

/-- Settles O19: each receiver and each lane acts on the change by itself. -/
theorem settingsChange : Obligations.SettingsChange := by
  unfold Obligations.SettingsChange
  refine fun s c => ⟨_, rfl, rfl, rfl, fun l => ⟨_, changeSettings_link s c l, ?_⟩, fun i => ?_⟩
  · obtain ⟨hcheck, hseq, hlosses, htransition, hline⟩ := settingsChange_kept s.settings c l (s.link l)
    refine ⟨hcheck, hseq, hlosses, htransition, hline, fun h0 h1 => ?_, fun h0 h1 => ?_, fun h0 h1 => ?_, fun h0 h1 => ⟨?_, ?_, ?_⟩⟩
    · simp [LinkRx.settingsChange, enabled_false.2 h0, enabled_false.2 h1]
    · simp [LinkRx.settingsChange, enabled_of_ne h0, enabled_false.2 h1, LinkRx.disable, LinkRx.enterSearch]
    · simp [LinkRx.settingsChange, enabled_false.2 h0, enabled_of_ne h1, LinkRx.clearSequences, LinkRx.enterSearch]
    · intro hrange k
      rw [settingsChange_enabled h0 h1, if_pos (by rw [ne_eq, range_eq_iff h0 h1]; tauto)]
      simp [LinkRx.clearSequences]
    · intro hfirst hlast k
      rw [settingsChange_enabled h0 h1, if_neg (by rw [not_not, range_eq_iff h0 h1]; exact ⟨hfirst, hlast⟩)]
      simp only [Fin.getElem_fin, Vector.getElem_ofFn, slot_closure_changed h0 hfirst hlast]
    · rw [settingsChange_enabled h0 h1]
      split <;> rfl
  · rw [Fin.getElem_fin, changeSettings_getElem]
    rfl

/-! ### Saving and loading the profile -/

/-- Settles O20: a save is taken in IDLE alone, and its end stores the image it was given. -/
theorem profileSave : Obligations.ProfileSave := by
  unfold Obligations.ProfileSave
  refine ⟨fun wp s hc => ⟨fun hi => ?_, fun hi hs => ?_, fun hi hs hw => ?_, fun hi hs hw => ?_⟩,
    fun s => ⟨fun image since hs => ?_, fun hs => ?_⟩⟩
  · exact (exec_saveProfile wp s).trans (receive_eq hc rfl rfl (by simp [ownSaveProfile, hi, State.refuse, Answer.just]))
  · exact (exec_saveProfile wp s).trans
      (receive_eq hc rfl rfl (by simp [ownSaveProfile, hi, (isSaving_iff _).2 hs, State.refuse, Answer.just]))
  · exact (exec_saveProfile wp s).trans
      (receive_eq hc rfl rfl (by simp [ownSaveProfile, hi, not_saving hs, hw, State.refuse, Answer.just]))
  · exact (exec_saveProfile wp s).trans
      (receive_eq hc rfl rfl (by simp [ownSaveProfile, hi, not_saving hs, hw, State.succeed, Answer.ok]))
  · exact ⟨({ s with nvm := image, profile := .ready } : State).raise .profileDone,
      by simp only [exec, execProfileSaveComplete, hs], rfl, rfl, rfl, rfl, fun x => raise_event _ x _, by simp⟩
  · simp only [exec, execProfileSaveComplete]

/-- The CRC's shift register takes one bit at a time. -/
theorem crc16Bits_eq_foldl (r : BitVec 16) (bits : List Bool) :
    crc16Bits r bits = bits.foldl (fun (r : BitVec 16) b => if r.msb = b then r <<< 1 else (r <<< 1) ^^^ 0x1021#16) r := by
  induction bits generalizing r with
  | nil => rfl
  | cons b bs ih =>
    rw [crc16Bits, List.foldl_cons]
    by_cases h : r.msb = b <;> simp [h, ih]

theorem imageSettings_vals (m : Image) (k : Key) :
    (imageSettings m).vals[k] = m[2 * k.val].toNat * 256 + m[2 * k.val + 1].toNat := by
  rw [Fin.getElem_fin]
  exact Vector.getElem_ofFn k.isLt

theorem imageAccepted_iff (m : Image) :
    imageAccepted m = true ↔ crc16 (m.toList.take 80) = imageCrc m ∧ LegalSettings (imageSettings m) := by
  rw [imageAccepted, Bool.and_eq_true, decide_eq_true_iff, legal_iff]

theorem legalSettings_iff (c : Settings) : LegalSettings c ↔
    (∀ k : Key, settingTable[k].lo ≤ c.vals[k] ∧ c.vals[k] ≤ settingTable[k].hi) ∧
      (∀ l : LinkId, c.first l ≠ 0 → c.first l ≤ c.last l ∧ c.last l ≤ c.first l + 5) ∧
      (c.first .a ≠ 0 → c.first .b ≠ 0 → c.last .a < c.first .b ∨ c.last .b < c.first .a) :=
  ⟨fun ⟨h, k, j⟩ => ⟨h, k, j⟩, fun ⟨h, k, j⟩ => ⟨h, k, j⟩⟩

/-- Settles O21: a load takes the stored settings where the image is accepted, and the defaults elsewhere. -/
theorem loadProfile : Obligations.LoadProfile := by
  unfold Obligations.LoadProfile
  refine ⟨fun s hc => ⟨fun hi => ?_, fun hi hs => ?_, fun hi hs => ⟨s.loadProfile, ?_, fun ha => ?_, fun ha => ⟨?_, ?_, ?_, fun x => ?_⟩⟩⟩,
    fun m => ⟨_, rfl, imageSettings_vals m, ?_⟩, fun bytes => crc16Bits_eq_foldl _ _⟩
  · exact (exec_loadProfile s).trans (receive_eq hc rfl rfl (by simp [ownLoadProfile, hi, State.refuse, Answer.just]))
  · exact (exec_loadProfile s).trans
      (receive_eq hc rfl rfl (by simp [ownLoadProfile, hi, (isSaving_iff _).2 hs, State.refuse, Answer.just]))
  · exact (exec_loadProfile s).trans
      (receive_eq hc rfl rfl (by simp [ownLoadProfile, hi, not_saving hs, State.succeed, Answer.ok]))
  · simp [State.loadProfile, State.loadedSettings, State.loadedProfile, ha, State.raiseIf]
  · simp only [State.loadProfile, State.loadedSettings, State.loadedProfile, ha]
    rfl
  · simp [State.loadProfile]
  · simp [State.loadProfile]
  · rw [State.loadProfile, raiseIf_event]
    simp [ha]
  · rw [imageAccepted_iff, legalSettings_iff]
    rfl

/-! ### The image (R195) -/

theorem settingBytes_get (c : Settings) {i : Nat} (h : i < 80) :
    (settingBytes c)[i] = if i % 2 = 0 then byteOf (c.vals[i / 2] / 256) else byteOf c.vals[i / 2] := by
  simp [settingBytes, byteOf]

theorem imageOf_body (c : Settings) {i : Nat} (h : i < 80) : (imageOf c)[i] = (settingBytes c)[i] := by
  unfold imageOf
  exact Vector.getElem_append_left h

theorem imageOf_take (c : Settings) : (imageOf c).toList.take 80 = (settingBytes c).toList := by
  unfold imageOf
  rw [Vector.toList_append, List.take_left' (by simp)]

theorem imageOf_crc (c : Settings) : imageCrc (imageOf c) = crc16 (settingBytes c).toList := by
  have hhigh : (imageOf c)[80] = (crc16 (settingBytes c).toList).extractLsb' 8 8 := by
    unfold imageOf
    exact Vector.getElem_append_right (by omega) (by omega)
  have hlow : (imageOf c)[81] = (crc16 (settingBytes c).toList).extractLsb' 0 8 := by
    unfold imageOf
    exact Vector.getElem_append_right (by omega) (by omega)
  rw [imageCrc, hhigh, hlow]
  generalize crc16 (settingBytes c).toList = r
  apply BitVec.eq_of_getLsbD_eq
  intro i hi
  simp only [BitVec.getLsbD_append, BitVec.getLsbD_extractLsb']
  by_cases h : i < 8
  · simp [h]
  · simp [h, show i - 8 < 8 by omega, show 8 + (i - 8) = i by omega]

theorem imageOf_value (c : Settings) (k : Key) :
    (imageOf c)[2 * k.val] = byteOf (c.vals[k] / 256) ∧ (imageOf c)[2 * k.val + 1] = byteOf c.vals[k] := by
  have hk := k.isLt
  constructor
  · rw [imageOf_body c (by omega), settingBytes_get c (by omega), if_pos (by omega)]
    simp
  · rw [imageOf_body c (by omega), settingBytes_get c (by omega), if_neg (by omega)]
    simp [show (2 * k.val + 1) / 2 = k.val by omega]

/-- No value of the store needs more than two bytes (Table 11-1). -/
theorem value_lt {c : Settings} (h : LegalSettings c) (k : Key) : c.vals[k] < 65536 := by
  have hhi : settingTable[k].hi < 65536 := by
    revert k
    decide
  exact lt_of_le_of_lt (h.range k).2 hhi

theorem imageSettings_imageOf {c : Settings} (h : LegalSettings c) : imageSettings (imageOf c) = c := by
  have hvals : (imageSettings (imageOf c)).vals = c.vals := by
    refine Vector.ext fun i hi => ?_
    have hvalue := imageSettings_vals (imageOf c) ⟨i, hi⟩
    obtain ⟨hhigh, hlow⟩ := imageOf_value c ⟨i, hi⟩
    have hlt := value_lt h ⟨i, hi⟩
    simp only [Fin.getElem_fin] at hvalue hhigh hlow hlt
    rw [hvalue, hhigh, hlow]
    simp only [byteOf, BitVec.toNat_ofNat]
    omega
  exact congrArg Settings.mk hvals

/-- Settles O22: the image of legal settings is accepted and gives them back. -/
theorem profileImageRoundTrip : Obligations.ProfileImageRoundTrip := by
  unfold Obligations.ProfileImageRoundTrip
  intro s hs
  have hlegal := ((settingsLaw_iff s).1 hs).1
  have hback := imageSettings_imageOf hlegal
  refine ⟨(imageAccepted_iff _).2 ⟨?_, hback.symm ▸ hlegal⟩, hback, imageOf_value s.settings, ?_, by decide, by decide⟩
  · rw [imageOf_crc, imageOf_take]
  · rw [imageOf_take]
    exact imageOf_crc s.settings

end Sys2Proof.Proofs
end

section
/-! PROOFS. The commands of the roster and of the heat's sequence; the statements O23, O24 and O26 to O31. -/

namespace Sys2Proof.Proofs

open Sys2Proof.Machine Sys2Proof.Laws

/-! ### Opening and closing a heat -/

theorem parsePolicy_none {x : Byte} (h : 2 < x.toNat) : parsePolicy x = none := by
  unfold parsePolicy
  rw [if_neg (by rintro rfl; simp at h), if_neg (by rintro rfl; simp at h), if_neg (by rintro rfl; simp at h)]

theorem parsePolicy_value (p : Policy) : parsePolicy p.value = some p := by cases p <;> rfl

/-- Settles O23: the arguments are tested in order before the heat is opened. -/
theorem openHeat : Obligations.OpenHeat := by
  unfold Obligations.OpenHeat
  refine fun number policy s hc => ⟨fun hi => ?_, fun hi hs => ?_, fun hi hs => ⟨fun hbad => ?_, fun p hp hn => ?_⟩⟩
  · exact (exec_openHeat number policy s).trans (receive_eq hc rfl rfl (by rw [ownOpenHeat, if_pos hi]; rfl))
  · exact (exec_openHeat number policy s).trans
      (receive_eq hc rfl rfl (by rw [ownOpenHeat, if_neg (not_not_intro hi), if_pos ((isSaving_iff _).2 hs)]; rfl))
  · refine (exec_openHeat number policy s).trans (receive_eq hc rfl rfl ?_)
    rw [ownOpenHeat, if_neg (not_not_intro hi), if_neg (by simp [not_saving hs])]
    rcases hbad with hbad | rfl
    · rw [parsePolicy_none hbad]
      rfl
    · cases parsePolicy policy <;> rfl
  · refine (exec_openHeat number policy s).trans (receive_eq hc rfl rfl ?_)
    rw [ownOpenHeat, if_neg (not_not_intro hi), if_neg (by simp [not_saving hs]), hp, parsePolicy_value]
    simp only [if_neg hn]
    rfl

/-- Settles O24: a heat closes before its marks or after its report, and is retired whole. -/
theorem closeHeat : Obligations.CloseHeat := by
  unfold Obligations.CloseHeat
  refine fun s hc => ⟨fun h => ?_, fun h => ⟨s.retire, ?_, fun i => ?_, rfl, rfl, rfl, rfl⟩⟩
  · refine (exec_closeHeat s).trans (receive_eq hc rfl rfl ?_)
    rcases h with h | h | h | h <;> simp [ownCloseHeat, h, closable, State.refuse, Answer.just]
  · refine (exec_closeHeat s).trans (receive_eq hc rfl rfl ?_)
    rcases h with h | h | h | h <;> simp [ownCloseHeat, h, closable, State.succeed, Answer.ok]
  · exact mapLanes_lane s _ i

/-! ### Vacating and withdrawing a lane, and finding a bib -/

theorem changeLane_same (s : State) (i : LaneNo) (f : Lane → Lane) : (s.changeLane i f).lanes[i] = f s.lanes[i] := by
  rw [changeLane_lane, if_pos rfl]

theorem changeLane_of_ne (s : State) {i j : LaneNo} (f : Lane → Lane) (h : j ≠ i) : (s.changeLane i f).lanes[j] = s.lanes[j] := by
  rw [changeLane_lane, if_neg h]

theorem ownVacateLane_parsed {lane : Byte} {s : State} {i : LaneNo} (hs : s.heat.state = .roster) (hi : parseLane lane = some i) :
    ownVacateLane lane s = if s.lanes[i].entry.isNone then s.refuse .notFound else (s.vacateLane i).succeed := by
  unfold ownVacateLane
  rw [if_neg (not_not_intro hs), hi]

theorem ownWithdrawLane_parsed {lane : Byte} {s : State} {i : LaneNo}
    (hs : ¬ (s.heat.state = .idle ∨ s.heat.state = .set ∨ s.heat.state = .watch)) (hi : parseLane lane = some i) :
    ownWithdrawLane lane s =
      if s.lanes[i].entry.isNone then s.refuse .notFound
      else if s.lanes[i].eligible = false then s.refuse .wrongState
      else (s.changeLane i Lane.withdraw).succeed := by
  unfold ownWithdrawLane
  rw [if_neg hs, hi]

/-- An entered lane is eligible to start exactly with standing ELIGIBLE or CAUTIONED (R5). -/
theorem eligible_of_entry {l : Lane} {e : Entry} (h : l.entry = some e) :
    l.eligible = true ↔ e.standing = .eligible ∨ e.standing = .cautioned := by
  simp [Lane.eligible, h]

/-- Settles O26: the lane's entry decides each refusal. -/
theorem vacateAndWithdrawLane : Obligations.VacateAndWithdrawLane := by
  unfold Obligations.VacateAndWithdrawLane
  refine ⟨fun lane s hc => ⟨fun hs => ?_, fun hs => ⟨fun h => ?_, fun i hi => ⟨fun hv => ?_, fun hv =>
      ⟨s.vacateLane i, ?_, fun p => ?_, List.filter_sublist, changeLane_same s i _, fun j => changeLane_of_ne s _, rfl⟩⟩⟩⟩,
    fun lane s hc => ⟨fun hs => ?_, fun h1 h2 h3 => ⟨fun h => ?_, fun i hi => ⟨fun hv => ?_, fun e he => ⟨fun hst => ?_, fun hst =>
      ⟨s.changeLane i Lane.withdraw, ?_, ?_, fun j => changeLane_of_ne s _, rfl⟩⟩⟩⟩⟩⟩
  · exact (exec_vacateLane lane s).trans (receive_eq hc rfl rfl (by rw [ownVacateLane, if_pos hs]; rfl))
  · exact (exec_vacateLane lane s).trans
      (receive_eq hc rfl rfl (by rw [ownVacateLane, if_neg (not_not_intro hs), parseLane_none h]; rfl))
  · exact (exec_vacateLane lane s).trans
      (receive_eq hc rfl rfl (by rw [ownVacateLane_parsed hs (parseLane_some hi), hv]; rfl))
  · refine (exec_vacateLane lane s).trans (receive_eq hc rfl rfl ?_)
    rw [ownVacateLane_parsed hs (parseLane_some hi), if_neg (by simpa using hv)]
    rfl
  · simp [State.vacateLane]
  · exact (exec_withdrawLane lane s).trans (receive_eq hc rfl rfl (by rw [ownWithdrawLane, if_pos hs]; rfl))
  · exact (exec_withdrawLane lane s).trans
      (receive_eq hc rfl rfl (by rw [ownWithdrawLane, if_neg (by simp [h1, h2, h3]), parseLane_none h]; rfl))
  · exact (exec_withdrawLane lane s).trans
      (receive_eq hc rfl rfl (by rw [ownWithdrawLane_parsed (by simp [h1, h2, h3]) (parseLane_some hi), hv]; rfl))
  · have hne : s.lanes[i].eligible = false := by
      rw [← Bool.not_eq_true, eligible_of_entry he]
      rcases hst with hst | hst <;> simp [hst]
    refine (exec_withdrawLane lane s).trans (receive_eq hc rfl rfl ?_)
    rw [ownWithdrawLane_parsed (by simp [h1, h2, h3]) (parseLane_some hi), he, if_neg (by simp), if_pos hne]
    rfl
  · have hel : s.lanes[i].eligible = true := (eligible_of_entry he).2 hst
    refine (exec_withdrawLane lane s).trans (receive_eq hc rfl rfl ?_)
    rw [ownWithdrawLane_parsed (by simp [h1, h2, h3]) (parseLane_some hi), he, if_neg (by simp), if_neg (by rw [hel]; simp)]
    rfl
  · rw [changeLane_same]
    simp only [Lane.withdraw, Lane.changeEntry, he, Option.map_some]

/-- A bib stands in a lawful index once. -/
theorem index_lane_unique {s : State} (h : s.IndexLaw) {b : Nat} {i j : LaneNo} (hi : (b, i) ∈ s.bibIndex)
    (hj : (b, j) ∈ s.bibIndex) : i = j := by
  have hkeys : (s.bibIndex.map Prod.fst).Nodup := List.pairwise_map.2 (h.sorted.imp fun hlt => ne_of_lt hlt)
  exact (Prod.mk.inj (List.inj_on_of_nodup_map hkeys hi hj rfl)).2

/-- Settles O27: the index pairs each bib with its lane alone (R9). -/
theorem findBib : Obligations.FindBib := by
  unfold Obligations.FindBib
  refine fun bib s hc hl => ⟨fun h => ?_, fun hlo hhi => ⟨fun i e he hb => ?_, fun hno => ?_⟩⟩
  · exact (exec_findBib bib s).trans (receive_eq hc rfl rfl (by rw [ownFindBib, parseBib_none h]; rfl))
  · have hmem : (bib.toNat, i) ∈ s.bibIndex := (hl.exact _ i).2 ⟨e, he, hb⟩
    obtain ⟨j, hj⟩ := Option.isSome_iff_exists.1 ((indexFind_isSome bib.toNat s.bibIndex).2 ⟨i, hmem⟩)
    obtain rfl : j = i := index_lane_unique hl (indexFind_mem hj) hmem
    exact (exec_findBib bib s).trans (receive_eq hc rfl rfl (by rw [ownFindBib, parseBib_some hlo hhi]; simp only [hj]; rfl))
  · have hnone : indexFind bib.toNat s.bibIndex = none := by
      rw [← Option.not_isSome_iff_eq_none, indexFind_isSome]
      rintro ⟨j, hj⟩
      obtain ⟨e, he, hb⟩ := (hl.exact _ j).1 hj
      exact hno j e he hb
    exact (exec_findBib bib s).trans
      (receive_eq hc rfl rfl (by rw [ownFindBib, parseBib_some hlo hhi]; simp only [hnone]; rfl))

/-! ### CALL MARKS, CALL SET and STAND UP -/

theorem anyEligible_iff (s : State) : s.anyEligible = true ↔ ∃ i : LaneNo, s.lanes[i].eligible = true := allLanes_any_iff

theorem anyEligible_false {s : State} (h : ∀ i : LaneNo, s.lanes[i].eligible = false) : s.anyEligible = false := by
  rw [← Bool.not_eq_true, anyEligible_iff]
  rintro ⟨i, hi⟩
  exact ne_true_of_eq_false (h i) hi

/-- Settles O28: the next attempt begins where a lane is left to start. -/
theorem callMarks : Obligations.CallMarks := by
  unfold Obligations.CallMarks
  refine fun s hc => ⟨fun h1 h2 => ?_, fun hs => ?_⟩
  · exact (exec_callMarks s).trans (receive_eq hc rfl rfl (by rw [ownCallMarks, if_pos ⟨h1, h2⟩]; rfl))
  · have hstate : ¬ (s.heat.state ≠ .roster ∧ s.heat.state ≠ .review) := by tauto
    refine ⟨fun hno => ?_, fun hany hlimit => ?_, fun hany hlimit => ⟨s.beginAttempt, ?_, rfl, fun i => ?_, rfl⟩⟩
    · exact (exec_callMarks s).trans
        (receive_eq hc rfl rfl (by rw [ownCallMarks, if_neg hstate, if_pos (anyEligible_false hno)]; rfl))
    · exact (exec_callMarks s).trans (receive_eq hc rfl rfl (by
        rw [ownCallMarks, if_neg hstate, if_neg (by simp [(anyEligible_iff s).2 hany]), if_pos (by simpa [Config.attemptLimit])]
        rfl))
    · exact (exec_callMarks s).trans (receive_eq hc rfl rfl (by
        rw [ownCallMarks, if_neg hstate, if_neg (by simp [(anyEligible_iff s).2 hany]),
          if_neg (by simpa [Config.attemptLimit] using hlimit)]
        rfl))
    · rw [show s.beginAttempt.lanes[i] = _ from beginAttempt_getElem s i.val i.isLt]
      rfl

/-- At the entry to SET no lane eligible to start is settled, so the permit's conditions do not hold (R31, R82). -/
theorem setField_conditions (s : State) : s.setField.permitConditions = false := by
  rw [← Bool.not_eq_true, permitConditions_iff]
  rintro ⟨_, ⟨i, hi⟩, hsettled, _⟩
  have hlane : s.setField.lanes[i] = if s.lanes[i].eligible then s.lanes[i].attemptSet else s.lanes[i] :=
    setField_getElem s i.val i.isLt
  have hphase := hsettled i hi
  by_cases he : s.lanes[i].eligible = true
  · rw [hlane, if_pos he] at hphase
    cases hphase
  · rw [hlane, if_neg he] at hi
    exact he hi

/-- With the permit off and its conditions not met, settling it changes nothing. -/
theorem settlePermit_off {s : State} (h : s.permitConditions = false) (hp : s.gun.permitOut = false) : s.settlePermit = s := by
  unfold State.settlePermit
  rw [if_pos (h.trans hp.symm)]

/-- Settles O29: the lanes of the attempt are told, and the permit is evaluated. -/
theorem callSet : Obligations.CallSet := by
  unfold Obligations.CallSet
  refine fun s hc => ⟨fun hs => ?_, fun hs => ⟨fun hno => ?_, fun hany => ⟨s.setField, ?_, setField_heat s, fun i => ?_, fun hp => ?_⟩⟩⟩
  · exact (exec_callSet s).trans (receive_eq hc rfl rfl (by rw [ownCallSet, if_pos hs]; rfl))
  · exact (exec_callSet s).trans
      (receive_eq hc rfl rfl (by rw [ownCallSet, if_neg (not_not_intro hs), if_pos (anyEligible_false hno)]; rfl))
  · exact (exec_callSet s).trans (receive_eq hc rfl rfl (by
      rw [ownCallSet, if_neg (not_not_intro hs), if_neg (by simp [(anyEligible_iff s).2 hany])]
      rfl))
  · exact setField_getElem s i.val i.isLt
  · have hconditions := setField_conditions s
    unfold State.setField at hconditions ⊢
    rw [settlePermit_permitConditions] at hconditions
    rw [settlePermit_off hconditions hp]
    rfl

theorem endAttempt_movers (s : State) : s.endAttempt.movers = s.movers := by
  unfold State.movers
  congr 1
  funext i
  have hlane : s.endAttempt.lanes[i] = if s.lanes[i].eligible then s.lanes[i].attemptEnded else s.lanes[i] :=
    endAttempt_getElem s i.val i.isLt
  rw [hlane]
  split <;> rfl

/-- A stand-up closes the attempt, and drops the permit if it is up (R33, R84). -/
theorem standField_event (s : State) (x : NoticeSource) : s.standField.notices.events[x.index] = true ↔
    s.notices.events[x.index] = true ∨ x = .attemptClosed ∨ x = .permitChange ∧ s.gun.permitOut = true := by
  unfold State.standField
  dsimp only
  rw [settlePermit_event, raise_event, permitConditions_outside (by simp)]
  simp only [withHeat_notices, judgeStandUp_notices, endAttempt_notices, raise_gun, withHeat_gun, judgeStandUp_gun,
    endAttempt_gun]
  rw [or_assoc, and_comm, ne_comm, ne_eq, Bool.not_eq_false]

theorem standField_levels (s : State) :
    s.standField.notices.levels = s.notices.levels ∧ s.standField.notices.ceiling = s.notices.ceiling := by
  unfold State.standField
  dsimp only
  rw [settlePermit_levels, settlePermit_ceiling]
  exact ⟨rfl, rfl⟩

/-- Settles O30: the attempt ends, is judged as stood up, and the permit falls. -/
theorem standUp : Obligations.StandUp := by
  unfold Obligations.StandUp
  refine fun s hc => ⟨fun h1 h2 => ?_, fun hs => ⟨s.standField, ?_, standField_heat s, ?_, fun i => ?_, standField_gun s,
    standField_event s, (standField_levels s).1, (standField_levels s).2, by simp⟩⟩
  · exact (exec_standUp s).trans (receive_eq hc rfl rfl (by rw [ownStandUp, if_neg (by simp [h1, h2])]; rfl))
  · exact (exec_standUp s).trans (receive_eq hc rfl rfl (by rw [ownStandUp, if_pos hs]; rfl))
  · rw [standField_report]
    unfold State.standUpReport
    rw [endAttempt_movers]
    rfl
  · exact standField_getElem s i.val i.isLt

/-! ### Recalls -/

theorem starterRecall_watch {s : State} (h : s.heat.state = .watch) : s.starterRecall = s.issueRecall .starter := by
  unfold State.starterRecall
  rw [if_neg (by simp [h])]

/-- A starter's recall in RUNNING: the recall issues, the report is amended and the heat goes to REVIEW (R43, R147). -/
theorem starterRecall_running {s : State} (hl : s.HeatLaw) (h : s.heat.state = .running) : ∃ r, s.report = some r ∧
    s.starterRecall.heat = { (s.issueRecall .starter).heat with state := .review, deadlineTime := none } ∧
    s.starterRecall.report = some { r with outcome := .starterRecall, recallCause := some .starter } ∧
    { s.starterRecall with heat := (s.issueRecall .starter).heat, report := (s.issueRecall .starter).report } =
      s.issueRecall .starter := by
  obtain ⟨r, hr, _⟩ := hl.reportAfter (by simp [h, reviewState])
  have hclean := (hl.reportClean (.inl h) r hr).1
  refine ⟨r, hr, by rw [starterRecall_heat, if_pos h], ?_, ?_⟩
  · rw [starterRecall_report, if_pos h, amendReport_report, hr, Option.map_some, if_pos hclean]
  · unfold State.starterRecall
    rw [if_pos h]
    rfl

/-- Settles O31: a recall is issued once, and in RUNNING the report is amended with it. -/
theorem recallIsIssuedOnce : Obligations.Recall := by
  unfold Obligations.Recall
  refine ⟨fun s cause => ⟨_, rfl, fun h => ?_, fun h => ⟨?_, ?_, fun x => ?_, by simp, by simp, issueRecall_rest s cause⟩⟩,
    fun s hc => ⟨fun h => ?_, fun h => ?_, fun h => ?_, fun h hl => ?_⟩⟩
  · obtain ⟨r, hr⟩ := Option.ne_none_iff_exists'.1 h
    simp [State.issueRecall, hr]
  · simp [State.issueRecall, h, stampAdd]
  · simp [State.recallOut, State.issueRecall, h]
  · rw [issueRecall_event]
    simp [h]
  · refine (exec_recall s).trans (receive_eq hc rfl rfl ?_)
    rcases h with h | h | h | h | h <;> simp [ownRecall, h, State.refuse, Answer.just]
  · exact (exec_recall s).trans (receive_eq hc rfl rfl (by simp [ownRecall, h, State.refuse, Answer.just]))
  · exact (exec_recall s).trans
      (receive_eq hc rfl rfl (by simp [ownRecall, h, starterRecall_watch h, State.succeed, Answer.ok]))
  · obtain ⟨r, hr, hheat, hreport, hrest⟩ := starterRecall_running hl h
    refine ⟨s.starterRecall, _, r, (exec_recall s).trans (receive_eq hc rfl rfl (by simp [ownRecall, h, State.succeed, Answer.ok])),
      rfl, hr, hheat, hreport, ?_, hrest⟩
    rw [hheat]
    simp [State.issueRecall, hl.issued (by simp [h]) (by simp [h])]

end Sys2Proof.Proofs
end

section
/-! PROOFS. The close of an attempt, the heat's timers and what a close writes; the statements O32, O33, O35 and O36. -/

namespace Sys2Proof.Proofs

open Sys2Proof.Machine Sys2Proof.Laws

/-! ### The close -/

/-- What a close has raised before a deadline is looked at: ATTEMPT_CLOSED (R44). -/
theorem leaveWatch_raise_event (t : State) (o : AttemptOutcome) (x : NoticeSource) :
    ((t.judge.leaveWatch o).raise .attemptClosed).notices.events[x.index] = true ↔
      t.notices.events[x.index] = true ∨ x = .attemptClosed := by
  unfold State.leaveWatch
  split <;> rw [raise_event, withHeat_notices, judge_notices]

/-- The close is taken past RUNNING where the outcome is clean and the deadline has been reached (R46). -/
theorem leaveWatch_running_iff (t : State) (o : AttemptOutcome) :
    (((t.judge.leaveWatch o).raise .attemptClosed).heat.state = .running ∧
      timerDue ((t.judge.leaveWatch o).raise .attemptClosed).heat.deadlineTime
        ((t.judge.leaveWatch o).raise .attemptClosed).trackTime = true) ↔
      o = .clean ∧ timerDue t.heat.deadlineTime t.trackTime = true := by
  unfold State.leaveWatch
  by_cases h : o = .clean <;> simp [h, State.judge]

/-- A close raises ATTEMPT_CLOSED, and DEADLINE_PASSED when it takes the heat past RUNNING (R44, R46). -/
theorem closeAttempt_event (s : State) (x : NoticeSource) : s.closeAttempt.notices.events[x.index] = true ↔
    s.notices.events[x.index] = true ∨ x = .attemptClosed ∨
      x = .deadlinePassed ∧ (atClose s).outcome = .clean ∧ timerDue s.heat.deadlineTime s.trackTime = true := by
  have hiff := leaveWatch_running_iff (atClose s) (atClose s).outcome
  have hevent := leaveWatch_raise_event (atClose s) (atClose s).outcome x
  have hstart : (atClose s).notices = s.notices := by simp [atClose]
  have hdeadline : (atClose s).heat.deadlineTime = s.heat.deadlineTime := by simp [atClose]
  have htime : (atClose s).trackTime = s.trackTime := by simp [atClose]
  rw [hdeadline, htime] at hiff
  rw [hstart] at hevent
  unfold State.closeAttempt
  dsimp only
  rw [← atClose]
  split
  · next h =>
    rw [State.passDeadline, raise_event, withHeat_notices, hevent, or_assoc]
    simp only [hiff.1 h, and_self, and_true]
  · next h =>
    rw [hevent]
    simp only [mt hiff.2 h, and_false, or_false]

theorem closeAttempt_levels (s : State) :
    s.closeAttempt.notices.levels = s.notices.levels ∧ s.closeAttempt.notices.ceiling = s.notices.ceiling := by
  unfold State.closeAttempt State.leaveWatch
  dsimp only
  (repeat' split) <;> exact ⟨rfl, rfl⟩

/-- Settles O32: the close writes what the attempt's end gives, and an overdue deadline follows within it. -/
theorem closeExpiry : Obligations.CloseExpiry := by
  unfold Obligations.CloseExpiry
  refine fun s => ⟨fun hw c hc hdue => ⟨s.closeAttempt, atClose s, ?_, rfl, closeAttempt_lanes_atClose s,
    closeAttempt_report_atClose s, ?_, closeAttempt_event s, (closeAttempt_levels s).1, (closeAttempt_levels s).2, by simp⟩,
    fun h => ?_⟩
  · simp only [exec, execCloseExpiry]
    rw [if_pos ⟨hw, (timerDue_iff _ _).2 ⟨c, hc, hdue⟩⟩]
  · rw [closeAttempt_heat_atClose]
    by_cases hclean : (atClose s).outcome = .clean <;> by_cases hlate : timerDue s.heat.deadlineTime s.trackTime = true <;>
      simp [hclean, hlate]
  · simp only [exec, execCloseExpiry]
    rw [if_neg]
    rintro ⟨hw, hdue⟩
    obtain ⟨c, hc, hge⟩ := (timerDue_iff _ _).1 hdue
    exact absurd hge (not_le.2 (h.resolve_left (not_not_intro hw) c hc))

/-! ### The other timers -/

theorem timerDue_future {timer : Option Stamp} {now : Stamp} (h : ∀ p, timer = some p → stampDiff now p < 0) :
    ¬ timerDue timer now = true := by
  rw [timerDue_iff]
  rintro ⟨p, hp, hge⟩
  exact absurd hge (not_le.2 (h p hp))

/-- Settles O33: each timer acts when track time has reached it, in its own heat state. -/
theorem timersExpire : Obligations.TimersExpire := by
  unfold Obligations.TimersExpire
  intro s
  have hreached : ∀ {timer : Option Stamp} (p : Stamp), timer = some p → 0 ≤ stampDiff s.trackTime p →
      timerDue timer s.trackTime = true := fun p hp hge => (timerDue_iff _ _).2 ⟨p, hp, hge⟩
  refine ⟨fun hr d hd hge => ⟨s.passDeadline, ?_, rfl, fun x => ?_, rfl, rfl, rfl⟩, fun h => ?_, fun p hp hge => ⟨?_, rfl⟩,
    fun h => ?_, fun p hp hge => ?_, fun h => ?_⟩
  · simp only [exec, execDeadlineExpiry]
    rw [if_pos ⟨hr, hreached d hd hge⟩]
  · rw [State.passDeadline, raise_event, withHeat_notices]
  · simp only [exec, execDeadlineExpiry]
    rw [if_neg fun ⟨hr, hdue⟩ => timerDue_future (h.resolve_left (not_not_intro hr)) hdue]
  · simp only [exec, execPulseEnd]
    rw [if_pos (hreached p hp hge)]
    rfl
  · simp only [exec, execPulseEnd]
    rw [if_neg (timerDue_future h)]
  · simp only [exec, execLockoutEnd]
    rw [if_pos (hreached p hp hge)]
    rfl
  · simp only [exec, execLockoutEnd]
    rw [if_neg (timerDue_future h)]

/-! ### Results and charges -/

section Judgement

variable {s : State} {i : LaneNo}

/-- A culprit is given its result, and its charge as the policy calls for (R132, R135). -/
theorem judgeLane_culprit {d : HeatId} {rt : Int} (hd : s.heat.id = some d) (hk : s.classOf i = some (.falseLane rt))
    (hc : s.isCulprit i = true) (l : Lane) : s.judgeLane i l = l.changeEntry fun e =>
      Entry.senseCharge d.policy s.heat.warning.isSome s.heat.attempt rt
        { e with result := some ⟨.culprit rt, l.provisional⟩ } := by
  simp [State.judgeLane, hk, hd, LaneClass.falseRt, hc, State.resultKind]

/-- Any other lane judged is given its result alone (R132, R140). -/
theorem judgeLane_not_culprit {k : LaneClass} (hk : s.classOf i = some k) (hc : s.isCulprit i = false) (l : Lane) :
    s.judgeLane i l = l.changeEntry fun e => { e with result := some ⟨s.resultKind i k, l.provisional⟩ } := by
  unfold State.judgeLane
  rw [hk]
  dsimp only
  split <;> simp [hc]

theorem judgeLane_not_judged (hk : s.classOf i = none) (l : Lane) : s.judgeLane i l = l := by
  simp [State.judgeLane, hk]

theorem senseCharge_kept (p : Policy) (w : Bool) (n : Nat) (rt : Int) (e : Entry) :
    (e.senseCharge p w n rt).bib = e.bib ∧ (e.senseCharge p w n rt).result = e.result := by
  unfold Entry.senseCharge
  split <;> exact ⟨rfl, rfl⟩

/-- Disqualification: under INDIVIDUAL, under FIELD once warned, and of the cautioned under CAUTION (R136, R137, R138). -/
theorem senseCharge_disqualifies {p : Policy} {w : Bool} {e : Entry}
    (h : p = .individual ∨ p = .field ∧ w = true ∨ p = .caution ∧ e.standing = .cautioned) (n : Nat) (rt : Int) :
    (e.senseCharge p w n rt).charges = e.charges ++ [⟨n, .disqualify, .sensed rt, false⟩] ∧
      (e.senseCharge p w n rt).standing = .disqualified := by
  rcases h with rfl | ⟨rfl, rfl⟩ | ⟨rfl, hst⟩
  · exact ⟨rfl, rfl⟩
  · exact ⟨rfl, rfl⟩
  · simp [Entry.senseCharge, sensedEffect, hst, Entry.charge]

theorem senseCharge_cautions {w : Bool} {e : Entry} (h : e.standing = .eligible) (n : Nat) (rt : Int) :
    (e.senseCharge .caution w n rt).charges = e.charges ++ [⟨n, .caution, .sensed rt, false⟩] ∧
      (e.senseCharge .caution w n rt).standing = .cautioned := by
  simp [Entry.senseCharge, sensedEffect, h, Entry.charge]

end Judgement

/-- Settles O35: a lane judged is given its result, and a culprit its charge by the policy. -/
theorem resultsAndCharges : Obligations.ResultsAndCharges := by
  unfold Obligations.ResultsAndCharges
  intro s d hd i
  have hlane : s.judge.lanes[i] = s.judgeLane i s.lanes[i] := judge_getElem s i.val i.isLt
  refine ⟨fun hel => hlane.trans (judgeLane_not_judged (classOf_not_eligible hel) _), fun e he hel => ?_⟩
  by_cases hc : i ∈ s.culprits
  · obtain ⟨rt, hk⟩ := class_of_culprit hc
    rw [judgeLane_culprit hd hk ((mem_culprits s i).1 hc), changeEntry_of_entry he] at hlane
    obtain ⟨hbib, hresult⟩ := senseCharge_kept d.policy s.heat.warning.isSome s.heat.attempt rt
      { e with result := some ⟨.culprit rt, s.lanes[i].provisional⟩ }
    refine ⟨_, hlane, hbib, ?_, fun hn => absurd hc hn, fun x hx _ => ⟨fun hp hw => ?_, fun hp => ?_, fun hp hst => ?_⟩⟩
    · rw [hresult]
      simp only [hk, if_pos hc]
      rfl
    all_goals
      obtain rfl : rt = x := by simpa using hk.symm.trans hx
    · rw [hp, hw]
      exact ⟨rfl, rfl⟩
    · refine senseCharge_disqualifies ?_ _ _
      rcases hp with hp | ⟨hp, hw⟩ | hp
      · exact .inl hp
      · exact .inr (.inl ⟨hp, Option.isSome_iff_ne_none.2 hw⟩)
      · exact .inr (.inr hp)
    · rw [hp]
      exact senseCharge_cautions (e := { e with result := some ⟨.culprit rt, s.lanes[i].provisional⟩ }) hst _ _
  · have hk := classOf_eligible hel
    have hnot : s.isCulprit i = false := by
      rw [← Bool.not_eq_true, ← mem_culprits]
      exact hc
    rw [judgeLane_not_culprit hk hnot, changeEntry_of_entry he] at hlane
    refine ⟨_, hlane, rfl, ?_, fun _ => ⟨rfl, rfl⟩, fun _ _ hin => absurd hin hc⟩
    rw [hk]
    cases s.lanes[i].classify s.settings <;> simp [State.resultKind, hnot, hc, Lane.provisional]

/-! ### The outcome, the report and the field warning -/

theorem warningAfter_of_none {s : State} {d : HeatId} (hw : s.heat.warning = none) (hd : s.heat.id = some d) :
    s.warningAfter = if d.policy = .field ∧ s.culprits ≠ [] then some ⟨s.heat.attempt, s.culprits, false⟩ else none := by
  unfold State.warningAfter
  rw [hw, hd]
  by_cases hp : d.policy = .field <;> by_cases hc : s.culprits = [] <;> simp [hp, hc]

theorem outcome_of_none {s : State} (h : s.culprits = []) : s.outcome =
    match s.heat.issued.map RecallRecord.cause with
    | none => .clean
    | some .starter => .starterRecall
    | some _ => .equipmentRecall := by
  unfold State.outcome outcomeOf
  rw [h]
  rfl

/-- Settles O36: the culprits decide the outcome, and without any the recall's cause does. -/
theorem outcomeReportAndWarning : Obligations.OutcomeReportAndWarning := by
  unfold Obligations.OutcomeReportAndWarning
  refine ⟨fun s d hd => ⟨fun w => warningAfter_of_some, fun hw hp hc => ?_, fun hw h => ?_⟩, fun s =>
    ⟨(outcome_falseStart_iff s).2, fun hc hi => ?_, fun r hc hi => ⟨fun hr => ?_, fun hr => ?_⟩, rfl, rfl, rfl, rfl, rfl, rfl,
      fun i => ?_, fun i => ?_, rfl⟩⟩
  · rw [warningAfter_of_none hw hd, if_pos ⟨hp, hc⟩]
  · rw [warningAfter_of_none hw hd, if_neg (by tauto)]
  · rw [outcome_of_none hc, hi]
    rfl
  · rw [outcome_of_none hc, hi, Option.map_some, hr]
  · rw [outcome_of_none hc, hi, Option.map_some, hr]
  · simp [State.closeReport, State.unsureLanes]
  · simp [State.closeReport, State.movers]

end Sys2Proof.Proofs
end

section
/-! PROOFS. A lane's detection, the onset stamp, blocks and samples; the statements O47, O48, O49 and O50. -/

namespace Sys2Proof.Proofs

open Sys2Proof.Machine Sys2Proof.Laws

/-! ### Detection -/

section Detection

variable {c : Settings} {p : SamplePoint} {l : Lane} {level : Nat}

/-- The lane a fresh sample at time `t` is judged on: its run has ended where it lapses (R112). -/
def afterLapse (c : Settings) (t : Stamp) (l : Lane) : Lane := if runLapses c l t then l.endRun else l

theorem detect_of_level (h : l.level? = some level) : l.detect c p =
    if c.confirmCount ≤ ((afterLapse c p.time l).judgeSample level p).runCount then
      (((afterLapse c p.time l).judgeSample level p).endDetection,
        some (onsetStamp level (((afterLapse c p.time l).judgeSample level p).runStart.getD p)
          ((afterLapse c p.time l).judgeSample level p).predecessor))
    else ((afterLapse c p.time l).judgeSample level p, none) := by
  rw [Lane.detect, h]
  rfl

theorem afterLapse_runCount (t : Stamp) : (afterLapse c t l).runCount =
    if l.runStart.any (fun q => decide ((5 * (c.confirmCount + 2) : Int) < stampDiff t q.time)) then 0 else l.runCount := by
  unfold afterLapse runLapses runWindow
  cases l.runStart with
  | none => rfl
  | some q =>
    by_cases hlate : (5 * (c.confirmCount + 2) : Int) < stampDiff t q.time
    · by_cases hrun : 0 < l.runCount
      · simp [hlate, hrun, Lane.endRun]
      · simp [hlate, Nat.eq_zero_of_not_pos hrun]
    · simp [hlate]

/-- A run that goes on has not lapsed. -/
theorem afterLapse_of_pos {t : Stamp} (h : 0 < (afterLapse c t l).runCount) : afterLapse c t l = l := by
  unfold afterLapse at h ⊢
  split at h
  · exact absurd h (by simp [Lane.endRun])
  · next hlapse => rw [if_neg hlapse]

theorem afterLapse_endRun (t : Stamp) : (afterLapse c t l).endRun = l.endRun := by
  unfold afterLapse
  split <;> rfl

theorem afterLapse_lastJudged (t : Stamp) : (afterLapse c t l).lastJudged = l.lastJudged := by
  unfold afterLapse
  split <;> rfl

/-- A run that starts anew takes nothing from the run before it. -/
theorem afterLapse_run (t : Stamp) (n : Nat) (start pred last : Option SamplePoint) :
    { afterLapse c t l with runCount := n, runStart := start, predecessor := pred, lastJudged := last } =
      { l with runCount := n, runStart := start, predecessor := pred, lastJudged := last } := by
  unfold afterLapse
  split <;> rfl

theorem judgeSample_below (h : p.force < level) : l.judgeSample level p = { l.endRun with lastJudged := some p } := by
  rw [Lane.judgeSample, if_pos h]

theorem judgeSample_first (h : level ≤ p.force) (hrun : l.runCount = 0) : l.judgeSample level p =
    { l with runCount := 1, runStart := some p, predecessor := l.lastJudged, lastJudged := some p } := by
  rw [Lane.judgeSample, if_neg (not_lt.2 h), if_pos hrun]

theorem judgeSample_next (h : level ≤ p.force) (hrun : 0 < l.runCount) :
    l.judgeSample level p = { l with runCount := l.runCount + 1, lastJudged := some p } := by
  rw [Lane.judgeSample, if_neg (not_lt.2 h), if_neg hrun.ne']

end Detection

/-- Settles O48: a sample below the level ends the run, one at or above it starts or extends it. -/
theorem detection : Obligations.Detection := by
  unfold Obligations.Detection
  refine fun c p l hconfirm => ⟨fun h => detect_none _ _ _ ?_, fun b run hb huse hrun => ?_⟩
  · unfold Lane.level?
    split
    · next b hb => rw [if_neg (by rw [h b hb]; exact Bool.false_ne_true)]
    · rfl
  rw [← afterLapse_runCount] at hrun
  have hlevel : l.level? = some b.level := by rw [Lane.level?, hb]; exact if_pos huse
  rw [detect_of_level hlevel]
  refine ⟨fun hf => ?_, fun hf hr => ?_, fun hf hr hlt => ?_, fun q hf hr hge hq => ?_⟩
  · rw [judgeSample_below hf, afterLapse_endRun, if_neg (by simp only [Lane.endRun]; omega)]
    rfl
  · rw [judgeSample_first hf (hrun.symm.trans hr), afterLapse_run, afterLapse_lastJudged, if_neg (by dsimp only; omega)]
  all_goals
    have hsame := afterLapse_of_pos (hrun ▸ hr)
    rw [hsame] at hrun ⊢
    rw [judgeSample_next hf (hrun ▸ hr), ← hrun]
  · rw [if_neg (not_le.2 hlt)]
  · rw [if_pos hge]
    dsimp only
    rw [hq]
    rfl

/-! ### The onset stamp -/

/-- A rounded crossing is the nearest unit to the exact one, a half up (R114). -/
theorem crossingOffset_rounds {dt level f0 f1 : Int} (hlo : f0 < level) (hhi : level ≤ f1) (hdt : 0 ≤ dt) :
    0 ≤ crossingOffset dt level f0 f1 ∧ crossingOffset dt level f0 f1 ≤ dt ∧
      2 * (f1 - f0) * crossingOffset dt level f0 f1 ≤ 2 * dt * (level - f0) + (f1 - f0) ∧
      2 * dt * (level - f0) + (f1 - f0) < 2 * (f1 - f0) * (crossingOffset dt level f0 f1 + 1) := by
  have hspan : 0 < 2 * (f1 - f0) := by omega
  have hnum : 0 ≤ 2 * dt * (level - f0) := by
    have := sub_pos.2 hlo
    positivity
  have htop : 2 * dt * (level - f0) ≤ 2 * dt * (f1 - f0) := mul_le_mul_of_nonneg_left (by omega) (by omega)
  unfold crossingOffset
  refine ⟨Int.ediv_nonneg (by omega) hspan.le, Int.lt_add_one_iff.1 (Int.ediv_lt_of_lt_mul hspan (by linarith)),
    Int.mul_ediv_self_le hspan.ne', Int.lt_mul_ediv_self_add hspan |>.trans_eq (by ring)⟩

theorem onsetStamp_unbracketed {level : Nat} {q p : SamplePoint} (h : level ≤ p.force) : onsetStamp level q (some p) = q.time := by
  rw [onsetStamp, if_neg (not_lt.2 h)]

/-- The onset stamp of a bracketed crossing lies at the rounded offset after the predecessor's sample time (R114). -/
theorem onsetStamp_bracketed {level : Nat} {q p : SamplePoint} (hlo : p.force < level) (hhi : level ≤ q.force)
    (hdt : 0 ≤ stampDiff q.time p.time) : stampDiff (onsetStamp level q (some p)) p.time =
      crossingOffset (stampDiff q.time p.time) level p.force q.force := by
  obtain ⟨hpos, hle, -⟩ := crossingOffset_rounds (Int.ofNat_lt.2 hlo) (Int.ofNat_le.2 hhi) hdt
  have hword : stampDiff q.time p.time < 2147483648 := BitVec.toInt_lt (x := q.time - p.time)
  rw [onsetStamp, if_pos hlo]
  exact stampDiff_ofInt _ _ hpos (lt_of_le_of_lt hle hword)

/-- Settles O49: the offset of the crossing is the floor of a quotient with a half added. -/
theorem onsetStamp : Obligations.OnsetStamp := by
  unfold Obligations.OnsetStamp
  exact fun level q => ⟨rfl, fun p => ⟨onsetStamp_unbracketed, fun hlo hhi hdt =>
    ⟨_, onsetStamp_bracketed hlo hhi hdt, crossingOffset_rounds (Int.ofNat_lt.2 hlo) (Int.ofNat_le.2 hhi) hdt⟩⟩⟩

end Sys2Proof.Proofs
end

section
/-! PROOFS. A sample taken by a lane and the blocks it joins; the statements O47 and O50. -/

namespace Sys2Proof.Proofs

open Sys2Proof.Machine Sys2Proof.Laws

/-! ### Samples -/

section Sample

variable {c : Settings} {x : Sample} {l : Lane}

/-- The lane with the sample noted. -/
theorem noteFresh_eq : l.noteFresh x = { l with lastForce := if x.force = none then l.lastForce else x.force } := by
  unfold Lane.noteFresh
  cases x.force <;> simp

theorem heldAfter_eq : heldAfter c l x = if x.force = none then min (l.heldCount + 1) c.staleLimit else 0 := by
  unfold heldAfter
  cases x.force <;> simp

theorem staleAt_iff : staleAt c l x = true ↔ x.force = none ∧ c.staleLimit ≤ l.heldCount + 1 := by
  unfold staleAt
  rw [heldAfter_eq]
  cases x.force <;> simp

/-- The lane with the sample noted and its held count brought up to date. -/
theorem noteFresh_held : ({ l.noteFresh x with heldCount := heldAfter c (l.noteFresh x) x } : Lane) =
    { l with
      lastForce := if x.force = none then l.lastForce else x.force,
      heldCount := if x.force = none then min (l.heldCount + 1) c.staleLimit else 0 } := by
  rw [heldAfter_eq, noteFresh_heldCount, noteFresh_eq]

theorem noteFresh_stale_iff : staleAt c (l.noteFresh x) x = true ↔ x.force = none ∧ c.staleLimit ≤ l.heldCount + 1 := by
  rw [staleAt_iff, noteFresh_heldCount]

end Sample

section InSet

variable {c : Settings} {x : Sample} {l m n : Lane} {f : Nat}

theorem takeInSet_stale (hm : { l with heldCount := heldAfter c l x } = m) (h : staleAt c l x = true) :
    l.takeInSet c x = ({ m.resettle with block := Block.empty }, none) := by
  rw [Lane.takeInSet, if_pos h, hm]

theorem takeInSet_held (hm : { l with heldCount := heldAfter c l x } = m) (h : ¬ staleAt c l x = true) (hx : x.force = none) :
    l.takeInSet c x = (m.joinBlock c (l.lastForce.getD 0), none) := by
  rw [Lane.takeInSet, if_neg h, hm]
  simp only [hx, Lane.forceOf, Option.getD_none]

theorem not_stale_of_fresh (hx : x.force = some f) : ¬ staleAt c l x = true := by
  simp [staleAt, hx]

theorem takeInSet_settling (hm : { l with heldCount := heldAfter c l x } = m) (hx : x.force = some f) (hp : l.phase ≠ .settled) :
    l.takeInSet c x = (m.joinBlock c f, none) := by
  rw [Lane.takeInSet, if_neg (not_stale_of_fresh hx), hm]
  simp only [hx, if_neg hp]

theorem takeInSet_still (hm : { l with heldCount := heldAfter c l x } = m) (hx : x.force = some f) (hp : l.phase = .settled)
    (hd : m.detect c ⟨x.time, f⟩ = (n, none)) : l.takeInSet c x = (n.joinBlock c f, none) := by
  rw [Lane.takeInSet, if_neg (not_stale_of_fresh hx), hm]
  simp only [hx, if_pos hp, hd]

theorem takeInSet_moves {onset : Stamp} (hm : { l with heldCount := heldAfter c l x } = m) (hx : x.force = some f)
    (hp : l.phase = .settled) (hd : m.detect c ⟨x.time, f⟩ = (n, some onset)) :
    l.takeInSet c x = (n.move onset, some .earlyMove) := by
  rw [Lane.takeInSet, if_neg (not_stale_of_fresh hx), hm]
  simp only [hx, if_pos hp, hd]

end InSet

section InWatch

variable {c : Settings} {i : LaneNo} {gun : Option Stamp} {x : Sample} {l m n : Lane} {f : Nat}

theorem takeInWatch_stale (hm : { l with heldCount := heldAfter c l x } = m) (h : staleAt c l x = true)
    (hp : l.phase = .waiting ∨ l.phase = .settling) : l.takeInWatch c i gun x = (m.makeUnsure, some .unsureLane) := by
  rw [Lane.takeInWatch, if_pos (by simpa [h] using hp), hm]

theorem takeInWatch_held (hm : { l with heldCount := heldAfter c l x } = m) (hx : x.force = none)
    (h : ¬ (staleAt c l x = true ∧ (l.phase = .waiting ∨ l.phase = .settling))) : l.takeInWatch c i gun x = (m, none) := by
  rw [Lane.takeInWatch, if_neg (by simpa using h), hm]
  simp only [hx]

theorem takeInWatch_idle (hm : { l with heldCount := heldAfter c l x } = m) (hx : x.force = some f) (hp : l.phase ≠ .waiting) :
    l.takeInWatch c i gun x = (m, none) := by
  rw [Lane.takeInWatch, if_neg (by simp [not_stale_of_fresh hx]), hm]
  simp only [hx, if_neg hp]

theorem takeInWatch_still (hm : { l with heldCount := heldAfter c l x } = m) (hx : x.force = some f) (hp : l.phase = .waiting)
    (hd : m.detect c ⟨x.time, f⟩ = (n, none)) : l.takeInWatch c i gun x = (n, none) := by
  rw [Lane.takeInWatch, if_neg (by simp [not_stale_of_fresh hx]), hm]
  simp only [hx, if_pos hp, hd]

theorem takeInWatch_reacts {onset : Stamp} (hm : { l with heldCount := heldAfter c l x } = m) (hx : x.force = some f)
    (hp : l.phase = .waiting) (hd : m.detect c ⟨x.time, f⟩ = (n, some onset)) :
    l.takeInWatch c i gun x = n.react c i gun onset := by
  rw [Lane.takeInWatch, if_neg (by simp [not_stale_of_fresh hx]), hm]
  simp only [hx, if_pos hp, hd]

end InWatch

/-- A reaction against a gun stamp: the lane has its onset and RT, and a false one is reported (R117, R118, R122). -/
theorem react_some (c : Settings) (i : LaneNo) (g onset : Stamp) (l : Lane) : l.react c i (some g) onset =
    ({ l with phase := .reacted, onset := some onset, rt := some (reactionTime c i onset g) },
      if reactionTime c i onset g < c.falseLimit then some .falseOnset else none) := by
  simp only [Lane.react, Machine.isFalse, decide_eq_true_eq]

/-- Settles O47: the sample is noted, the held count follows it, and the phase decides what it is used for. -/
theorem samples : Obligations.Samples := by
  unfold Obligations.Samples
  refine ⟨fun c h gun i x l m hm => ⟨fun hs hw => ?_, fun hp => ?_, fun hs hp => ?_⟩,
    fun c gun i x l m hp hm => ?_, fun c gun i x l m hp hm => ?_⟩
  · rw [takeSample_idle _ hs hw, hm, noteFresh_eq]
  · have hnote := hm.trans noteFresh_eq.symm
    by_cases hs : h = .set
    · rw [hs, takeSample_set, hp, hnote]
      rfl
    · by_cases hw : h = .watch
      · rw [hw, takeSample_watch, if_pos hp, hnote]
      · rw [takeSample_idle _ hs hw, hnote]
  · rw [hs, takeSample_set, if_neg (by simp [hp]), if_pos hp, heldAfter_eq, noteFresh_heldCount, hm, noteFresh_eq]
  · rw [takeSample_set, if_pos hp]
    have hm' := noteFresh_held.trans hm.symm
    refine ⟨fun hx hge => ?_, fun hx hlt => ?_, fun f hx hs => ?_, fun f n hx hs hd => ?_, fun f n onset hx hs hd => ?_⟩
    · rw [takeInSet_stale hm' (noteFresh_stale_iff.2 ⟨hx, hge⟩), hm]
      rfl
    · rw [takeInSet_held hm' (fun h => absurd (noteFresh_stale_iff.1 h).2 (not_le.2 hlt)) hx, noteFresh_eq, if_pos hx]
    · exact takeInSet_settling hm' hx (by simp [hs])
    · exact takeInSet_still hm' hx ((noteFresh_phase _ _).trans hs) hd
    · exact takeInSet_moves hm' hx ((noteFresh_phase _ _).trans hs) hd
  · rw [takeSample_watch, if_neg hp]
    have hm' := noteFresh_held.trans hm.symm
    refine ⟨fun hx hge hph => ?_, fun hx h => ?_, fun f hx hs => ?_, fun f n hx hs hd => ?_,
      fun f n onset rt hx hs hd hrt => ?_⟩
    · rw [takeInWatch_stale hm' (noteFresh_stale_iff.2 ⟨hx, hge⟩) (by simpa using hph)]
      rfl
    · refine takeInWatch_held hm' hx ?_
      rw [noteFresh_stale_iff, noteFresh_phase]
      rintro ⟨⟨-, hge⟩, hph⟩
      exact h.elim (fun hlt => absurd hge (not_le.2 hlt)) fun ⟨hw, hs⟩ => hph.elim hw hs
    · exact takeInWatch_idle hm' hx (by simpa using hs)
    · exact takeInWatch_still hm' hx ((noteFresh_phase _ _).trans hs) hd
    · have hreact : reactionTime c i onset gun = rt := hrt.symm
      exact ⟨hreact ▸ saturateRt_range _, hreact ▸ (takeInWatch_reacts hm' hx ((noteFresh_phase _ _).trans hs) hd).trans
        (react_some ..)⟩

/-! ### Blocks -/

/-- The block is that of the samples `gs`: their count and sum, and a least and a greatest of them. -/
def BlockOf (gs : List Nat) (b : Block) : Prop :=
  b.count = gs.length ∧ b.sum = gs.sum ∧ (∀ g ∈ gs, b.minimum ≤ g ∧ g ≤ b.maximum) ∧ b.minimum ∈ gs ∧ b.maximum ∈ gs

theorem blockOf_singleton (f : Nat) : BlockOf [f] (Block.join ⟨0, 0, 0, 0⟩ f) := by
  simp [BlockOf, Block.join]

theorem BlockOf.join {gs : List Nat} {b : Block} (h : BlockOf gs b) (f : Nat) : BlockOf (gs ++ [f]) (b.join f) := by
  obtain ⟨hcount, hsum, hbounds, hmin, hmax⟩ := h
  have hpos : b.count ≠ 0 := by
    rw [hcount]
    exact (List.length_pos_of_mem hmin).ne'
  rw [Block.join, if_neg hpos]
  refine ⟨by simp [hcount], by simp [hsum], fun g hg => ?_, ?_, ?_⟩
  · rcases List.mem_append.1 hg with hg | hg
    · exact ⟨(min_le_left _ _).trans (hbounds g hg).1, (hbounds g hg).2.trans (le_max_left _ _)⟩
    · rw [List.mem_singleton.1 hg]
      exact ⟨min_le_right _ _, le_max_right _ _⟩
  · rcases min_choice b.minimum f with h | h <;> simp [h, hmin]
  · rcases max_choice b.maximum f with h | h <;> simp [h, hmax]

theorem BlockOf.foldl {gs : List Nat} {b : Block} (h : BlockOf gs b) (fs : List Nat) :
    BlockOf (gs ++ fs) (fs.foldl Block.join b) := by
  induction fs generalizing gs b with
  | nil => simpa using h
  | cons f fs ih => simpa using ih (h.join f)

section JoinBlock

variable {c : Settings} {f mean : Nat} {l : Lane}

theorem joinBlock_short (h : (l.block.join f).count < 40) : l.joinBlock c f = { l with block := l.block.join f } :=
  if_pos h

theorem joinBlock_full (h : 40 ≤ (l.block.join f).count) : l.joinBlock c f = l.blockEnd c (l.block.join f) :=
  if_neg (not_lt.2 h)

theorem judgeSettling_unsteady : l.judgeSettling c false mean = l.resettle := if_pos rfl

theorem judgeSettling_short (h : l.settleCount + 1 < c.settleBlocks) :
    l.judgeSettling c true mean = { l with settleCount := l.settleCount + 1 } := by
  simp [Lane.judgeSettling, h]

theorem judgeSettling_settles (h : c.settleBlocks ≤ l.settleCount + 1) (hfit : fits c mean = true) :
    l.judgeSettling c true mean = { l.endDetection with
      phase := .settled, settleCount := c.settleBlocks, baseline := some (baselineOf c .settled mean) } := by
  simp [Lane.judgeSettling, not_lt.2 h, hfit]

theorem judgeSettling_noHeadroom (h : c.settleBlocks ≤ l.settleCount + 1) (hfit : fits c mean = false) :
    l.judgeSettling c true mean = { l with settleCount := c.settleBlocks - 1 } := by
  simp [Lane.judgeSettling, not_lt.2 h, hfit]

theorem judgeSettled_running {steady : Bool} (h : 0 < l.runCount) : l.judgeSettled c steady mean = l := if_pos h

theorem judgeSettled_rebased (h : l.runCount = 0) (hfit : fits c mean = true) :
    l.judgeSettled c true mean = { l with baseline := some (baselineOf c .settled mean) } := by
  simp [Lane.judgeSettled, h, hfit]

theorem judgeSettled_lost {steady : Bool} (h : l.runCount = 0) (hlost : steady = false ∨ fits c mean = false) :
    l.judgeSettled c steady mean = l.resettle := by
  rcases hlost with rfl | hfit
  · simp [Lane.judgeSettled, h]
  · simp [Lane.judgeSettled, h, hfit]

end JoinBlock

/-- Settles O50: a full block is judged by its span and its headroom. -/
theorem blocks : Obligations.Blocks := by
  unfold Obligations.Blocks
  refine ⟨fun f fs => ⟨_, rfl, (blockOf_singleton f).foldl fs⟩, fun c f l m b mean thr hb hmean hthr hm => ?_⟩
  have hfits : ∀ {v : Bool}, decide (mean + thr ≤ 8190) = v → fits c mean = v := fun h => by
    rw [← h, hthr]
    rfl
  have hsteady : ∀ {v : Bool}, decide (b.maximum - b.minimum ≤ c.steadyBand) = v → b.steady c = v := id
  have hend : 40 ≤ b.count → l.joinBlock c f =
      if l.phase = .settled then m.judgeSettled c (b.steady c) mean else m.judgeSettling c (b.steady c) mean := fun h => by
    rw [joinBlock_full (hb ▸ h), ← hb, hm, hthr, hmean]
    rfl
  refine ⟨fun h => hb ▸ joinBlock_short (hb ▸ h), fun hfull hp => ⟨fun hband => ?_, fun hband => ⟨fun hn => ?_, fun hn hroom => ?_,
    fun hn hroom => ?_⟩⟩, fun hfull hp => ⟨fun hr => ?_, fun hr hband hroom => ?_, fun hr hlost => ?_⟩⟩
  all_goals rw [hend hfull, hp]
  · rw [if_neg (by decide), hsteady (decide_eq_false (not_le.2 hband)), judgeSettling_unsteady, hm]
    simp [Lane.resettle, Lane.endDetection, Lane.dropBaseline, hp]
  · rw [if_neg (by decide), hsteady (decide_eq_true hband), judgeSettling_short (by rw [hm]; exact hn), hm]
  · rw [if_neg (by decide), hsteady (decide_eq_true hband),
      judgeSettling_settles (by rw [hm]; exact hn) (hfits (decide_eq_true hroom)), hm, hthr]
    rfl
  · rw [if_neg (by decide), hsteady (decide_eq_true hband),
      judgeSettling_noHeadroom (by rw [hm]; exact hn) (hfits (decide_eq_false (not_le.2 hroom))), hm]
  · rw [if_pos rfl, judgeSettled_running (by rw [hm]; exact hr)]
  · rw [if_pos rfl, hsteady (decide_eq_true hband), judgeSettled_rebased (by rw [hm]; exact hr) (hfits (decide_eq_true hroom)),
      hm, hthr]
    rfl
  · rw [if_pos rfl, judgeSettled_lost (by rw [hm]; exact hr) (hlost.imp (fun h => hsteady (decide_eq_false (not_le.2 h)))
      fun h => hfits (decide_eq_false (not_le.2 h))), hm]
    rfl

end Sys2Proof.Proofs
end

section
/-! PROOFS. The gun line, its acceptance and the gun permit; the statements O39, O40, O41 and O42. -/

namespace Sys2Proof.Proofs

open Sys2Proof.Machine Sys2Proof.Laws

/-! ### The line -/

/-- Settles O39: an edge is qualified when nothing is in progress, and a release in a qualification is a glitch. -/
theorem gunLine : Obligations.GunLine := by
  unfold Obligations.GunLine
  refine fun s => ⟨fun hlow hreset hq hlock => ?_, fun hlow hbusy => ?_, fun hlow => ?_, fun hlow hq => ?_, fun hlow hq => ?_,
    fun hlow => ?_⟩
  · simp only [exec, execGunEdge, hlow]
    rw [if_neg Bool.false_ne_true, if_neg (by simp [hreset, hq, hlock])]
    rfl
  · simp only [exec, execGunEdge, hlow]
    rw [if_neg Bool.false_ne_true, if_pos (by simpa [Option.isSome_iff_ne_none, or_assoc] using hbusy)]
    rfl
  · simp only [exec, execGunEdge, if_pos hlow]
  · refine ⟨(s.withGun { s.gun with lineLow := false, qualification := none }).raise .gunGlitch, ?_, rfl, fun x => ?_,
      rfl, rfl, rfl⟩
    · simp only [exec, execGunRelease, if_pos (Option.isSome_iff_ne_none.2 hq)]
      rw [if_neg (by simp [hlow])]
    · rw [raise_event, withGun_notices]
  · simp only [exec, execGunRelease, hq]
    rw [if_neg (by simp [hlow])]
    rfl
  · simp only [exec, execGunRelease, if_pos hlow]

/-! ### The acceptance of a qualified edge -/

theorem qualified_iff {s : State} {q : Qualification} : s.qualified q = true ↔
    s.gun.lineLow = true ∧ 0 ≤ stampDiff s.trackTime (q.edge + BitVec.ofNat 32 q.period) := by
  rw [State.qualified, Bool.and_eq_true, reached, decide_eq_true_eq]
  rfl

theorem exec_gunAcceptance_qualified {s : State} {q : Qualification} (hq : s.gun.qualification = some q)
    (hlow : s.gun.lineLow = true) (hdue : 0 ≤ stampDiff s.trackTime (q.edge + BitVec.ofNat 32 q.period)) :
    exec .gunAcceptance s = .next (s.acceptGun q) := by
  simp only [exec, execGunAcceptance, hq, if_pos (qualified_iff.2 ⟨hlow, hdue⟩)]

/-- Settles O40: an accepted edge starts the lockout, and outside SET it is a second shot or out of turn. -/
theorem gunAcceptance : Obligations.GunAcceptance := by
  unfold Obligations.GunAcceptance
  refine fun s => ⟨fun q u hq hlow hdue hu => ?_, fun h => ?_⟩
  · rw [exec_gunAcceptance_qualified hq hlow hdue]
    have haccept : s.acceptGun q = u.takeGun q.edge := by rw [hu]; rfl
    have hheat : u.heat = s.heat := by rw [hu]
    have hnotices : u.notices = s.notices := by rw [hu]
    have hreport : u.report = s.report := by rw [hu]
    rw [haccept]
    refine ⟨fun hs hw hr => ⟨u.raise .gunOutOfTurn, ?_, fun x => ?_, ?_, ?_, ?_⟩, fun hw => ?_, fun hr hl => ?_⟩
    · rw [State.takeGun, hheat]
      cases hstate : s.heat.state <;> simp_all
    · rw [raise_event, hnotices]
    · rw [← hnotices]; rfl
    · rw [← hnotices]; rfl
    · rw [← hnotices]; rfl
    · rw [State.takeGun, hheat, hw]
      exact congrArg _ (starterRecall_watch (by rw [hheat, hw]))
    · have hlaw : u.HeatLaw := heatLaw_congr hheat hreport hl
      obtain ⟨r, hrep, hrest⟩ := starterRecall_running hlaw (by rw [hheat, hr])
      refine ⟨u.starterRecall, _, r, ?_, rfl, hreport ▸ hrep, hrest⟩
      rw [State.takeGun, hheat, hr]
  · simp only [exec, execGunAcceptance]
    split
    · rfl
    · next q hq =>
      refine if_neg fun hqualified => ?_
      obtain ⟨hlow, hdue⟩ := qualified_iff.1 hqualified
      exact absurd hdue (not_le.2 (h q hq hlow))

/-! ### The permit -/

theorem settlePermit_others (s : State) :
    { s.settlePermit with gun := { s.settlePermit.gun with permitOut := s.gun.permitOut }, notices := s.notices } = s := by
  rw [settlePermit_gun]
  exact settlePermit_rest s

/-- Settles O42: the permit takes the value of the five conditions, and its change is raised. -/
theorem permitEvaluation : Obligations.PermitEvaluation := by
  unfold Obligations.PermitEvaluation
  refine fun s => ⟨_, rfl, ?_, fun x => ?_, settlePermit_levels s, settlePermit_ceiling s, settlePermit_others s⟩
  · rw [settlePermit_gun]
    exact permitConditions_iff s
  · rw [settlePermit_event, settlePermit_gun, and_comm]

/-- Lanes that are told of an event, and the permit after it, change the lanes, the heat, the gun block and the notices alone. -/
theorem told_rest (v : State) (f : LaneNo → Lane → Lane × Option LaneReport) :
    { (v.takeReports f).settlePermit with gun := v.gun, heat := v.heat, lanes := v.lanes, notices := v.notices } = v :=
  (congrArg (fun t => { t with gun := v.gun, heat := v.heat, lanes := v.lanes, notices := v.notices })
    (settlePermit_rest (v.takeReports f))).trans
    ((congrArg (fun g => { v.takeReports f with gun := g, heat := v.heat, lanes := v.lanes, notices := v.notices })
      (takeReports_gun v f).symm).trans (takeReports_rest v f))

/-! ### A gun that starts the attempt -/

/-- The state in which the lanes are told of a gun accepted in SET: the lockout runs, and the timers are armed from the edge
(R35, R78). -/
def gunStarted (s : State) (q : Qualification) : State :=
  { s with
    gun := { s.gun with
      qualification := none, lastAccepted := some q.edge, lockoutEnd := some (stampAdd q.edge s.settings.gunLockout) }
    heat := { s.heat with
      state := .watch, gunStamp := some q.edge, closeTime := some (stampAdd q.edge s.settings.closeDelay),
      deadlineTime := some (stampAdd q.edge s.settings.recallDeadline) } }

theorem acceptGun_set {s : State} (h : s.heat.state = .set) (q : Qualification) :
    s.acceptGun q = ((gunStarted s q).takeReports (gunIndication s.settings q.edge)).settlePermit := by
  have hset : (s.withGun { s.gun with
      qualification := none, lastAccepted := some q.edge,
      lockoutEnd := some (stampAdd q.edge s.settings.gunLockout) }).heat.state = .set := h
  rw [State.acceptGun, State.takeGun, hset]
  rfl

/-- The gun finds a lane moved, or has nothing of it to report (R120). -/
theorem gunIndication_report (c : Settings) (gun : Stamp) (i : LaneNo) (l : Lane) (r : LaneReport) :
    (gunIndication c gun i l).2 = some r ↔ r = .falseOnset ∧ l.eligible = true ∧ l.phase = .moved := by
  unfold gunIndication
  split
  · next he =>
    have hreport : (l.gunAccepted c i gun).2 = if l.phase = .moved then some .falseOnset else none := by
      unfold Lane.gunAccepted
      cases hp : l.phase <;> simp only [reduceCtorEq, if_true, if_false]
      split
      · split <;> rfl
      · rfl
    rw [hreport]
    split
    · next hp =>
      rw [Option.some.injEq]
      exact ⟨fun hr => ⟨hr.symm, he, hp⟩, fun hr => hr.1.symm⟩
    · next hp => exact ⟨nofun, fun hr => absurd hr.2.2 hp⟩
  · next he => exact ⟨nofun, fun hr => absurd hr.2.1 he⟩

section GunAccepted

variable {c : Settings} {gun : Stamp} {i : LaneNo} {l : Lane}

theorem gunIndication_not_eligible (h : l.eligible = false) : gunIndication c gun i l = (l, none) := by
  rw [gunIndication, if_neg (by simp [h])]

theorem gunIndication_eligible (h : l.eligible = true) : gunIndication c gun i l = l.gunAccepted c i gun := if_pos h

theorem gunAccepted_settled (h : l.phase = .settled) :
    l.gunAccepted c i gun = ({ l with block := ⟨0, 0, 0, 0⟩, phase := .waiting }, none) := by
  simp only [Lane.gunAccepted, h]
  rfl

theorem gunAccepted_baseline {b : BlockEnd} (h : l.phase = .settling) (hb : l.lastBlock = some b)
    (hroom : b.mean + b.threshold ≤ 8190) : l.gunAccepted c i gun = ({ l with
      block := ⟨0, 0, 0, 0⟩, phase := .waiting, runCount := 0, runStart := none, predecessor := none, lastJudged := none,
      baseline := some ⟨b.mean, b.mean + b.threshold, .provisional, true⟩ }, none) := by
  simp only [Lane.gunAccepted, h, hb]
  exact if_pos hroom

theorem gunAccepted_no_baseline (h : l.phase = .settling) (hroom : ∀ b, l.lastBlock = some b → 8190 < b.mean + b.threshold) :
    l.gunAccepted c i gun = ({ l with block := ⟨0, 0, 0, 0⟩ }, none) := by
  simp only [Lane.gunAccepted, h]
  split
  · next b hb => exact (if_neg (not_le.2 (hroom b hb))).trans (by rw [← h]; rfl)
  · rw [← h]
    rfl

theorem gunAccepted_moved {o : Stamp} (h : l.phase = .moved) (ho : l.onset = some o) : l.gunAccepted c i gun =
    ({ l with block := ⟨0, 0, 0, 0⟩, rt := some (moverRt c i o gun) }, some .falseOnset) := by
  simp only [Lane.gunAccepted, h, ho]
  rw [← h]
  rfl

end GunAccepted

/-- Settles O41: the lanes are told of the gun, the movers' reports issue the recall, and the permit falls. -/
theorem gunStartsAttempt : Obligations.GunStartsAttempt := by
  unfold Obligations.GunStartsAttempt
  intro s q hs hlaw hq hlow hdue
  have hissued : s.heat.issued = none := hlaw.issued (by simp [hs]) (by simp [hs])
  have hmover : (gunStarted s q).reported (gunIndication s.settings q.edge) .falseOnset = true ↔
      ∃ i : LaneNo, s.lanes[i].eligible = true ∧ s.lanes[i].phase = .moved := by
    rw [reported_iff]
    simp only [gunIndication_report, true_and]
    rfl
  have hnothing : ∀ r, r ≠ .falseOnset → ¬ (gunStarted s q).reported (gunIndication s.settings q.edge) r = true := by
    intro r hr
    rw [reported_iff]
    rintro ⟨i, hi⟩
    exact hr ((gunIndication_report ..).1 hi).1
  have hheat : (s.acceptGun q).heat =
      if ∃ i : LaneNo, s.lanes[i].eligible = true ∧ s.lanes[i].phase = .moved then { (gunStarted s q).heat with
        issued := some ⟨.falseStart, s.trackTime⟩, pulseEnd := some (stampAdd s.trackTime s.settings.recallPulse) }
      else (gunStarted s q).heat := by
    rw [acceptGun_set hs, settlePermit_heat, takeReports_heat, if_neg (not_not_intro (show (gunStarted s q).heat.issued = none from hissued))]
    simp only [hmover, hnothing .unsureLane (by decide)]
    rfl
  refine ⟨s.acceptGun q, exec_gunAcceptance_qualified hq hlow hdue, ?_, ?_, ?_, ?_, ?_, ?_, ?_, ?_, fun hex => ?_, fun hno => ?_,
    fun i => ?_, fun x => ?_, ?_, ?_, ?_⟩
  · rw [acceptGun_set hs, settlePermit_gun, permitConditions_outside (by rw [takeReports_state]; simp [gunStarted]),
      takeReports_gun]
    simp [gunStarted, hlow, stampAdd]
  iterate 7 (rw [hheat]; split <;> rfl)
  · rw [hheat, if_pos hex]
    exact ⟨rfl, rfl⟩
  · rw [hheat, if_neg fun ⟨i, he, hp⟩ => hno i he hp]
    exact ⟨hissued, rfl⟩
  · have hlane : (s.acceptGun q).lanes[i] = (gunIndication s.settings q.edge i s.lanes[i]).1 := by
      rw [acceptGun_set hs, settlePermit_lanes, takeReports_lanes]
      exact lanesAfter_getElem (gunStarted s q) (gunIndication s.settings q.edge) i.val i.isLt
    refine ⟨fun he => hlane.trans ?_, fun he => ⟨fun hp => hlane.trans ?_, fun b hp hb hroom => hlane.trans ?_,
      fun hp hroom => hlane.trans ?_, fun o hp ho => hlane.trans ?_⟩⟩
    · rw [gunIndication_not_eligible he]
    all_goals rw [gunIndication_eligible he]
    · rw [gunAccepted_settled hp]
    · rw [gunAccepted_baseline hp hb hroom]
    · rw [gunAccepted_no_baseline hp hroom]
    · rw [gunAccepted_moved hp ho]
      rfl
  · rw [acceptGun_set hs, settlePermit_event, takeReports_event, permitConditions_outside (by rw [takeReports_state]; simp [gunStarted]),
      takeReports_gun]
    simp only [hmover, hnothing .unsureLane (by decide), hnothing .earlyMove (by decide)]
    have hissued' : (gunStarted s q).heat.issued = none := hissued
    have hnotices : (gunStarted s q).notices = s.notices := rfl
    have hpermit : (gunStarted s q).gun.permitOut = s.gun.permitOut := rfl
    rw [hissued', hnotices, hpermit]
    cases s.gun.permitOut <;> simp [and_comm, or_assoc]
  · rw [acceptGun_set hs, settlePermit_levels, takeReports_levels]
    rfl
  · rw [acceptGun_set hs, settlePermit_ceiling, takeReports_ceiling]
    rfl
  · rw [acceptGun_set hs]
    exact congrArg (fun t => { t with gun := s.gun, heat := s.heat, lanes := s.lanes, notices := s.notices })
      (told_rest (gunStarted s q) (gunIndication s.settings q.edge))

end Sys2Proof.Proofs
end

section
/-! PROOFS. The alignment of a link and its loss; the statements O43 and O44. -/

namespace Sys2Proof.Proofs

open Sys2Proof.Machine Sys2Proof.Laws

/-! ### One receiver is changed -/

/-- A receiver is replaced, and nothing else. -/
theorem withLink_spec (s : State) (l : LinkId) (r : LinkRx) : (s.withLink l r).link l = r ∧
    (∀ o, o ≠ l → (s.withLink l r).link o = s.link o) ∧ { s.withLink l r with linkA := s.linkA, linkB := s.linkB } = s :=
  ⟨by rw [withLink_link, if_pos rfl], fun o ho => by rw [withLink_link, if_neg ho], by cases l <;> rfl⟩

/-! ### The hunt, and the level of the line -/

theorem exec_searchWordFound_search {s : State} {l : LinkId} (hs : (s.link l).align = .search) (hreset : s.inReset = false) :
    exec (.searchWordFound l 0xC5A3) s = .next (s.withLink l { s.link l with
      align := .confirm, framePos := some (s.trackTime + 5), confirmCount := 0 }) := by
  simp only [exec, execSearchWordFound]
  exact if_pos (by rw [hs, hreset]; rfl)

theorem exec_searchWordFound_ignored {s : State} {l : LinkId} {bits : BitVec 16}
    (h : bits ≠ 0xC5A3 ∨ (s.link l).align ≠ .search ∨ s.inReset = true) : exec (.searchWordFound l bits) s = .next s := by
  simp only [exec, execSearchWordFound]
  refine if_neg fun hfound => ?_
  simp only [Bool.and_eq_true, beq_iff_eq, Bool.not_eq_true'] at hfound
  obtain ⟨⟨hreset, hs⟩, hbits⟩ := hfound
  rcases h with h | h | h
  · exact h hbits
  · exact h hs
  · rw [hreset] at h
    cases h

theorem exec_lineTransition (s : State) (l : LinkId) : exec (.lineTransition l) s = .next (s.withLink l { s.link l with
    lineHigh := !(s.link l).lineHigh,
    lastTransition := if s.inReset = true ∨ (s.link l).align = .disabled then (s.link l).lastTransition else s.trackTime }) := by
  simp only [exec, execLineTransition, Bool.or_eq_true, beq_iff_eq]

/-! ### A frame position -/

section FramePosition

variable {s : State} {l : LinkId} {silent : Bool} {bits : BitVec 16} {p : Stamp}

theorem exec_framePosition_ignored (h : s.inReset = true ∨ (s.link l).framePos = none ∨ (s.link l).frame ≠ none ∨
    (∀ p, (s.link l).framePos = some p → stampDiff s.trackTime p < 0)) : exec (.framePosition l silent bits) s = .next s := by
  simp only [exec, execFramePosition]
  split
  · rfl
  · next p hp =>
    refine if_pos ?_
    rw [Bool.or_eq_true, Bool.or_eq_true, or_assoc, Option.isSome_iff_ne_none, Bool.not_eq_true', reached, decide_eq_false_iff_not,
      not_le]
    rcases h with h | h | h | h
    · exact .inl h
    · exact absurd (h.symm.trans hp) nofun
    · exact .inr (.inr h)
    · exact .inr (.inl (h p hp))

theorem framePosition_reached (hreset : s.inReset = false) (hdue : 0 ≤ stampDiff s.trackTime p)
    (hframe : (s.link l).frame = none) : ¬ (s.inReset || !reached p s.trackTime || (s.link l).frame.isSome) = true := by
  simp [hreset, hframe, reached, hdue]

/-- A frame position that track time has reached, in CONFIRM (R54). -/
theorem exec_framePosition_confirm (halign : (s.link l).align = .confirm) (hp : (s.link l).framePos = some p)
    (h : ¬ (s.inReset || !reached p s.trackTime || (s.link l).frame.isSome) = true) :
    exec (.framePosition l silent bits) s =
      .next ((s.withLink l ((s.link l).confirmAt s.settings l p bits)).settlePermit) := by
  simp only [exec, execFramePosition, hp, halign]
  exact if_neg h

/-- A frame position that track time has reached, in LOCKED (R55). -/
theorem exec_framePosition_locked (halign : (s.link l).align = .locked) (hp : (s.link l).framePos = some p)
    (h : ¬ (s.inReset || !reached p s.trackTime || (s.link l).frame.isSome) = true) :
    exec (.framePosition l silent bits) s = .next (s.lockedAt l p silent bits) := by
  simp only [exec, execFramePosition, hp, halign]
  exact if_neg h

end FramePosition

section Receiver

variable {c : Settings} {l : LinkId} {p : Stamp} {bits : BitVec 16} {r : LinkRx}

theorem confirmAt_differs (h : bits ≠ 0xC5A3) : r.confirmAt c l p bits = r.enterSearch := if_pos h

theorem confirmAt_counts (h : bits = 0xC5A3) (hn : r.confirmCount < 2) : r.confirmAt c l p bits =
    { r with confirmCount := r.confirmCount + 1, framePos := some (p + 5) } :=
  (if_neg (not_not_intro h)).trans (if_pos (by omega))

theorem confirmAt_locks (h : bits = 0xC5A3) (hn : 2 ≤ r.confirmCount) : r.confirmAt c l p bits =
    { r with
      align := .locked, framePos := some (p + 5), confirmCount := 0, erroredCount := 0, prevSeq := Vector.replicate 6 none,
      frame := some ⟨p, p - BitVec.ofNat 32 (c.latency l), true⟩ } :=
  (if_neg (not_not_intro h)).trans (if_neg (by omega))

end Receiver

/-- The third errored word in a row loses the link (R55). -/
theorem lockedAt_loses {s : State} {l : LinkId} {bits : BitVec 16} (p : Stamp) (h : bits ≠ 0xC5A3)
    (hn : 2 ≤ (s.link l).erroredCount) : s.lockedAt l p false bits = s.loseLink l := by
  unfold State.lockedAt
  exact (if_neg Bool.false_ne_true).trans ((if_neg h).trans (if_neg (by omega)))

/-- Any other frame in LOCKED begins to be delivered (R55, R56, R59). -/
theorem lockedAt_stays {s : State} {l : LinkId} {silent : Bool} {bits : BitVec 16} (p : Stamp)
    (h : silent = true ∨ bits = 0xC5A3 ∨ (s.link l).erroredCount < 2) : s.lockedAt l p silent bits =
      s.withLink l { s.link l with
        framePos := some (p + 5),
        erroredCount := if silent = true then (s.link l).erroredCount
          else if bits = 0xC5A3 then 0 else (s.link l).erroredCount + 1,
        frame := some ⟨p, p - BitVec.ofNat 32 (s.settings.latency l), decide (silent = false ∧ bits = 0xC5A3)⟩ } := by
  unfold State.lockedAt
  cases silent with
  | true => rfl
  | false =>
    by_cases hbits : bits = 0xC5A3
    · subst hbits
      rfl
    · have hn : (s.link l).erroredCount + 1 < 3 := by
        rcases h with h | h | h
        · cases h
        · exact absurd h hbits
        · omega
      refine (if_neg Bool.false_ne_true).trans ((if_neg hbits).trans ((if_pos hn).trans ?_))
      simp only [hbits, and_false, decide_false, if_false, Bool.false_eq_true]
      rfl

/-- Settles O43: the receiver acts by its alignment state, on the word it finds or on the frame position it has reached. -/
theorem linkAlignment : Obligations.LinkAlignment := by
  unfold Obligations.LinkAlignment
  refine ⟨fun l s => ⟨fun hs hreset => ⟨_, exec_searchWordFound_search hs hreset, withLink_spec ..⟩,
    fun bits => exec_searchWordFound_ignored, _, exec_lineTransition s l, withLink_spec ..⟩,
    fun l silent bits s p hreset halign hp hdue hframe => ?_,
    fun l silent bits s => ⟨fun p hreset halign hp hdue hframe => ⟨?_, fun h => ⟨_, ?_, withLink_spec ..⟩⟩,
      exec_framePosition_ignored⟩⟩
  · obtain ⟨hsame, hother, hrest⟩ := withLink_spec s l ((s.link l).confirmAt s.settings l p bits)
    refine ⟨_, exec_framePosition_confirm halign hp (framePosition_reached hreset hdue hframe), fun h => hsame.trans ?_,
      fun h hn => hsame.trans (confirmAt_counts h hn), fun h hn => hsame.trans (confirmAt_locks h hn), hother, hrest⟩
    rw [confirmAt_differs h]
    rfl
  · rintro rfl hbits hn
    rw [exec_framePosition_locked halign hp (framePosition_reached hreset hdue hframe)]
    exact congrArg _ (lockedAt_loses p hbits hn)
  · rw [exec_framePosition_locked halign hp (framePosition_reached hreset hdue hframe)]
    exact congrArg _ (lockedAt_stays p h)

/-! ### The loss of a link -/

section LinkLost

variable {l : Lane}

theorem linkLost_set (h : l.phase = .settling ∨ l.phase = .settled) : l.linkLost .set =
    ({ l with
      phase := .settling, settleCount := 0, heldCount := 0, block := ⟨0, 0, 0, 0⟩, runCount := 0, runStart := none,
      predecessor := none, lastJudged := none, baseline := l.baseline.map fun b => { b with inUse := false } }, none) :=
  if_pos h

theorem linkLost_watch (h : l.phase = .settling ∨ l.phase = .waiting) : l.linkLost .watch =
    ({ l with phase := .unsure, runCount := 0, runStart := none, predecessor := none, lastJudged := none },
      some .unsureLane) :=
  if_pos h.symm

theorem linkLost_kept {h : HeatState} (hset : h = .set → l.phase ≠ .settling ∧ l.phase ≠ .settled)
    (hwatch : h = .watch → l.phase ≠ .settling ∧ l.phase ≠ .waiting) : l.linkLost h = (l, none) := by
  cases h
  case set => exact if_neg (not_or.2 (hset rfl))
  case watch => exact if_neg (not_or.2 (hwatch rfl).symm)
  all_goals rfl

/-- A lane of the lost link reports itself UNSURE in WATCH, and reports nothing else (R66, R126). -/
theorem lossIndication_report_iff (c : Settings) (h : HeatState) (k : LinkId) (i : LaneNo) (l : Lane) (r : LaneReport) :
    (lossIndication c h k i l).2 = some r ↔ r = .unsureLane ∧ (c.slotOf k i).isSome = true ∧ h = .watch ∧
      (l.phase = .settling ∨ l.phase = .waiting) := by
  constructor
  · intro hr
    obtain ⟨hw, rfl⟩ := lossIndication_report hr
    unfold lossIndication at hr
    split at hr
    · next hslot =>
      refine ⟨rfl, hslot, hw, by_contra fun hp => ?_⟩
      rw [hw, linkLost_kept (h := .watch) nofun fun _ => not_or.1 hp] at hr
      cases hr
    · cases hr
  · rintro ⟨rfl, hslot, rfl, hp⟩
    rw [lossIndication, if_pos hslot, linkLost_watch hp]

end LinkLost

theorem linkSilent_iff {s : State} {l : LinkId} : s.linkSilent l = true ↔
    (s.link l).align = .locked ∧ 0 ≤ stampDiff s.trackTime ((s.link l).lastTransition + 20) := by
  rw [State.linkSilent, Bool.and_eq_true, beq_iff_eq, reached, decide_eq_true_eq]
  rfl

/-- Settles O44: the receiver goes to SEARCH, its lanes are told, and their reports are taken before the permit. -/
theorem linkLoss : Obligations.LinkLoss := by
  unfold Obligations.LinkLoss
  intro l s
  obtain ⟨hsame, hother, hrest⟩ := withLink_spec s l (s.link l).lose
  have hlane : ∀ i : LaneNo, ((s.withLink l (s.link l).lose).takeReports
      (lossIndication s.settings s.heat.state l)).lanes[i] = (lossIndication s.settings s.heat.state l i s.lanes[i]).1 := by
    intro i
    have h := lanesAfter_getElem (s.withLink l (s.link l).lose) (lossIndication s.settings s.heat.state l) i.val i.isLt
    rw [takeReports_lanes]
    rwa [withLink_lanes] at h
  refine ⟨fun halign hdue => ?_, fun h => ?_, (s.withLink l (s.link l).lose).takeReports
    (lossIndication s.settings s.heat.state l), rfl, ?_, fun o ho => ?_, fun i => ⟨fun hslot hs hp => ?_, fun hslot hs hp => ?_,
      fun h => ?_⟩, fun hit hhit => ?_, ?_, ?_, ?_⟩
  · simp only [exec, execLinkSilence, if_pos (linkSilent_iff.2 ⟨halign, hdue⟩)]
  · simp only [exec, execLinkSilence]
    refine if_neg fun hsilent => ?_
    obtain ⟨halign, hdue⟩ := linkSilent_iff.1 hsilent
    exact h.elim (fun hn => hn halign) fun hlt => absurd hdue (not_le.2 hlt)
  · rw [takeReports_link, hsame]
    rfl
  · rw [takeReports_link, hother o ho]
  · rw [hlane, lossIndication, if_pos hslot, hs, linkLost_set hp]
  · rw [hlane, lossIndication, if_pos hslot, hs, linkLost_watch hp]
  · rw [hlane, lossIndication]
    split
    · next hslot =>
      have hphase := h.resolve_left (Option.isSome_iff_ne_none.1 hslot)
      rw [linkLost_kept]
      · rintro hs
        rcases hphase with h | h | h
        · exact absurd hs h.1
        · exact h.2
        · exact absurd (hs.symm.trans h.1) (by decide)
      · rintro hw
        rcases hphase with h | h | h
        · exact absurd hw h.2
        · exact absurd (hw.symm.trans h.1) (by decide)
        · exact h.2
    · rfl
  · have hunsure : ((s.withLink l (s.link l).lose).reported (lossIndication s.settings s.heat.state l) .unsureLane) = hit := by
      rw [Bool.eq_iff_iff, hhit, reported_iff]
      simp only [lossIndication_report_iff, true_and, withLink_lanes]
      exact ⟨fun ⟨i, hslot, hw, hp⟩ => ⟨hw, i, hslot, hp⟩, fun ⟨hw, i, hslot, hp⟩ => ⟨i, hslot, hw, hp⟩⟩
    have hnothing : ∀ r, r ≠ .unsureLane →
        (s.withLink l (s.link l).lose).reported (lossIndication s.settings s.heat.state l) r = false := by
      intro r hr
      rw [← Bool.not_eq_true, reported_iff]
      rintro ⟨i, hi⟩
      exact hr (lossIndication_report hi).2
    constructor
    · rw [takeReports_heat, hunsure, hnothing _ (by decide), withLink_heat, withLink_settings, withLink_trackTime]
      by_cases hissued : s.heat.issued = none
      · simp [hissued, stampAdd]
      · simp [hissued]
    · intro x
      rw [takeReports_event, hunsure, hnothing _ (by decide), hnothing _ (by decide), withLink_notices, withLink_heat,
        withLink_settings]
      cases hit <;> by_cases hissued : s.heat.issued = none <;> simp [hissued, and_comm]
  · rw [takeReports_levels, withLink_notices]
  · rw [takeReports_ceiling, withLink_notices]
  · have htold := takeReports_rest (s.withLink l (s.link l).lose) (lossIndication s.settings s.heat.state l)
    rw [withLink_lanes, withLink_heat, withLink_notices] at htold
    exact (congrArg (fun t => { t with linkA := s.linkA, linkB := s.linkB }) htold).trans hrest

end Sys2Proof.Proofs
end

section
/-! PROOFS. The slots of a frame and its arrival; the statements O45 and O46. -/

namespace Sys2Proof.Proofs

open Sys2Proof.Machine Sys2Proof.Laws

/-! ### Slots and lanes -/

/-- A lane is carried by a link's slot when the link serves it and it is open (R60): a link serves at most six lanes. -/
theorem slotOf_isSome_iff {c : Settings} (hc : LegalSettings c) (l : LinkId) (i : LaneNo) :
    (c.slotOf l i).isSome = true ↔ c.serves l i = true ∧ c.closed i = false := by
  rw [Option.isSome_iff_exists]
  constructor
  · rintro ⟨k, hk⟩
    obtain ⟨hserves, hopen, -⟩ := slotOf_eq_some.1 hk
    exact ⟨hserves, hopen⟩
  · rintro ⟨hserves, hopen⟩
    obtain ⟨hon, hfirst, hlast⟩ := serves_iff.1 hserves
    have hspan := (hc.links l hon).2
    exact ⟨⟨laneNumber i - c.first l, by omega⟩, slotOf_eq_some.2 ⟨hserves, hopen, by dsimp only; omega⟩⟩

/-- The two links' ranges lie apart, so no lane is served by both (R16). -/
theorem serves_apart {c : Settings} (hc : LegalSettings c) {i : LaneNo} (ha : c.serves .a i = true) : ¬ c.serves .b i = true := by
  intro hb
  obtain ⟨ha0, hafirst, halast⟩ := serves_iff.1 ha
  obtain ⟨hb0, hbfirst, hblast⟩ := serves_iff.1 hb
  have := hc.apart ha0 hb0
  omega

/-! ### The fields of a slot -/

section Fields

variable {front rear : BitVec 12} {fo ro fault present : Bool} {seq : BitVec 4} {check : BitVec 8} {w : BitVec 40}

theorem slot_fields
    (hw : w = front ++ rear ++ BitVec.ofBool fo ++ BitVec.ofBool ro ++ BitVec.ofBool fault ++ BitVec.ofBool present ++ seq ++
      check) :
    slotFront w = front.toNat ∧ slotRear w = rear.toNat ∧ slotFrontOverload w = fo ∧ slotRearOverload w = ro ∧
      slotFault w = fault ∧ slotPresent w = present ∧ slotSequence w = seq ∧ slotCheck w = check := by
  subst hw
  refine ⟨congrArg BitVec.toNat ?_, congrArg BitVec.toNat ?_, ?_, ?_, ?_, ?_, ?_, ?_⟩
  · iterate 7 refine (BitVec.extractLsb'_append_eq_of_le (by decide)).trans ?_
    exact BitVec.extractLsb'_eq_self
  · iterate 6 refine (BitVec.extractLsb'_append_eq_of_le (by decide)).trans ?_
    exact (BitVec.extractLsb'_append_eq_of_add_le (by decide)).trans BitVec.extractLsb'_eq_self
  · simp only [slotFrontOverload, BitVec.getLsbD_append]
    cases fo <;> rfl
  · simp only [slotRearOverload, BitVec.getLsbD_append]
    cases ro <;> rfl
  · simp only [slotFault, BitVec.getLsbD_append]
    cases fault <;> rfl
  · simp only [slotPresent, BitVec.getLsbD_append]
    cases present <;> rfl
  · refine (BitVec.extractLsb'_append_eq_of_le (by decide)).trans ?_
    exact (BitVec.extractLsb'_append_eq_of_add_le (by decide)).trans BitVec.extractLsb'_eq_self
  · exact (BitVec.extractLsb'_append_eq_of_add_le (by decide)).trans BitVec.extractLsb'_eq_self

/-- The drive force of a slot: each pedal's code, or full scale where it is overloaded (R90). -/
theorem slotForce_eq
    (hw : w = front ++ rear ++ BitVec.ofBool fo ++ BitVec.ofBool ro ++ BitVec.ofBool fault ++ BitVec.ofBool present ++ seq ++
      check) :
    slotForce w = (if fo then 4095 else front.toNat) + (if ro then 4095 else rear.toNat) := by
  obtain ⟨hfront, hrear, hfo, hro, -⟩ := slot_fields hw
  rw [slotForce, hfront, hrear, hfo, hro]
  rfl

end Fields

theorem pedalForce_le (overload : Bool) (code : BitVec 12) : pedalForce overload code.toNat ≤ 4095 := by
  have := code.isLt
  unfold pedalForce
  split <;> omega

theorem slotForce_le (w : BitVec 40) : slotForce w ≤ 8190 :=
  Nat.add_le_add (pedalForce_le _ _) (pedalForce_le _ _)

/-- The sequence faults: neither the previous sequence nor the next (R63). -/
theorem sequenceSkips_eq (prev : Option (BitVec 4)) (seq : BitVec 4) :
    sequenceSkips prev seq = decide (prev ≠ none ∧ prev ≠ some seq ∧ prev ≠ some (seq - 1)) := by
  cases prev with
  | none => simp [sequenceSkips]
  | some p =>
    have hnext : seq = p + 1 ↔ p = seq - 1 := by
      rw [eq_comm, BitVec.eq_sub_iff_add_eq]
    rw [Bool.eq_iff_iff, sequenceSkips, Bool.and_eq_true, bne_iff_ne, bne_iff_ne, decide_eq_true_eq, Ne, Ne, hnext,
      eq_comm (a := seq)]
    simp

/-- Settles O45: the fields are cut out of the word they were put together to, and the tests read them. -/
theorem slots : Obligations.Slots := by
  unfold Obligations.Slots
  refine ⟨fun s hs l i => ?_, fun front rear fo ro fault present seq check prev w hw => ?_⟩
  · have hlegal := ((settingsLaw_iff s).1 hs).1
    refine ⟨fun k => ?_, fun j k hj hk => ?_, ?_⟩
    · rw [slotOf_eq_some, serves_iff]
      constructor
      · rintro ⟨⟨hon, -, hlast⟩, hopen, hplace⟩
        exact ⟨hon, hplace, hlast, hopen⟩
      · rintro ⟨hon, hplace, hlast, hopen⟩
        exact ⟨⟨hon, by omega, hlast⟩, hopen, hplace⟩
    · exact serves_apart hlegal (slotOf_eq_some.1 hj).1 (slotOf_eq_some.1 hk).1
    · rw [slotOf_isSome_iff hlegal, slotOf_isSome_iff hlegal, canEnter_iff]
      constructor
      · rintro ⟨hopen, l, hl⟩
        cases l
        · exact .inl ⟨hl, hopen⟩
        · exact .inr ⟨hl, hopen⟩
      · rintro (⟨hl, hopen⟩ | ⟨hl, hopen⟩) <;> exact ⟨hopen, _, hl⟩
  · obtain ⟨-, -, -, -, hfault, hpresent, hseq, hcheck⟩ := slot_fields hw
    refine ⟨fun hc => ?_, fun hc hp => ?_, fun hc hp => ?_, slotForce_le w, by decide, by decide +kernel⟩
    · rw [judgeSlot, hcheck, if_pos hc]
    · rw [judgeSlot, hcheck, hpresent, if_neg (not_not_intro hc), if_pos hp]
    · rw [judgeSlot, hcheck, hpresent, if_neg (not_not_intro hc), if_neg (by simp [hp]), hfault, hseq, slotForce_eq hw,
        sequenceSkips_eq]
      simp only [Bool.or_eq_true, beq_iff_eq]


/-! ### The arrival of a frame -/

section Arrival

variable {s : State} {l : LinkId} {words : Vector (BitVec 40) 6} {f : FrameInProgress}

theorem exec_frameArrival_delivers (hreset : s.inReset = false) (hf : (s.link l).frame = some f)
    (hdue : 0 ≤ stampDiff s.trackTime (f.stamp + 4)) : exec (.frameArrival l words) s = .next (s.deliver l f words) := by
  simp only [exec, execFrameArrival, hf]
  refine if_pos ?_
  rw [hreset, Bool.not_false, Bool.true_and, reached, decide_eq_true_eq]
  exact hdue

theorem exec_frameArrival_ignored (h : s.inReset = true ∨ (s.link l).frame = none ∨
    (∀ f, (s.link l).frame = some f → stampDiff s.trackTime (f.stamp + 4) < 0)) :
    exec (.frameArrival l words) s = .next s := by
  simp only [exec, execFrameArrival]
  split
  · rfl
  · next f hf =>
    refine if_neg fun harrived => ?_
    rw [Bool.and_eq_true, Bool.not_eq_true', reached, decide_eq_true_eq] at harrived
    obtain ⟨hreset, hdue⟩ := harrived
    rcases h with h | h | h
    · exact absurd (hreset.symm.trans h) (by decide)
    · exact absurd (h.symm.trans hf) nofun
    · exact absurd hdue (not_le.2 (h f hf))

/-- The counts of the slots, over the six of them. -/
theorem allSlots_countP (p : Fin 6 → Bool) : allSlots.countP p = ((List.finRange 6).filter p).length :=
  List.countP_eq_length_filter

theorem arrived_prevSeq (c : Settings) (r : LinkRx) (k : Fin 6) : (r.arrived c l f words).prevSeq[k] =
    if c.mapped l k = true then (slotOutcome f r words k).prev else r.prevSeq[k] := by
  simp [LinkRx.arrived]

end Arrival

/-- What the lanes' reports raise; RECALL comes with the issue of a recall (R40, R41). -/
theorem takeReports_raised (v : State) (g : LaneNo → Lane → Lane × Option LaneReport) (x : NoticeSource) :
    (v.takeReports g).notices.events[x.index] = true ↔ v.notices.events[x.index] = true ∨
      x = .earlyMove ∧ v.reported g .earlyMove = true ∨ x = .laneUnsure ∧ v.reported g .unsureLane = true ∨
      x = .recall ∧ (v.takeReports g).heat.issued ≠ v.heat.issued ∨
      x = .falseStart ∧ v.heat.issued = none ∧ v.reported g .falseOnset = true := by
  rw [takeReports_event, takeReports_heat, and_comm (a := v.reported g .earlyMove = true),
    and_comm (a := v.reported g .unsureLane = true)]
  refine or_congr_right (or_congr_right (or_congr_right ?_))
  by_cases hissued : v.heat.issued = none
  · rw [if_neg (not_not_intro hissued)]
    cases v.reported g .falseOnset
    · cases v.reported g .unsureLane <;> cases v.settings.unsureRecall <;> simp [hissued]
    · simp only [hissued, if_true]
      simpa using fun _ _ h => .inl h
  · rw [if_pos hissued]
    simp [hissued]

/-- Settles O46: every mapped slot is tested, its lane takes the sample, and the reports are taken together. -/
theorem frameArrival : Obligations.FrameArrival := by
  unfold Obligations.FrameArrival
  refine fun l words s => ⟨fun f hreset hf hdue o d ho hd => ?_, exec_frameArrival_ignored⟩
  obtain rfl : o = slotOutcome f (s.link l) words := funext ho
  obtain rfl : d = fun i => sampleDelivery s l f words i s.lanes[i] := funext hd
  obtain ⟨hsame, hother, hrest⟩ := withLink_spec s l ((s.link l).arrived s.settings l f words)
  have hreported : ∀ r, (s.withLink l ((s.link l).arrived s.settings l f words)).reported (sampleDelivery s l f words) r = true ↔
      ∃ i, (sampleDelivery s l f words i s.lanes[i]).2 = some r := fun r => by
    rw [reported_iff, withLink_lanes]
  have hheat : ((s.withLink l ((s.link l).arrived s.settings l f words)).takeReports (sampleDelivery s l f words)).heat =
      if s.heat.issued ≠ none then s.heat
      else if (∃ i, (sampleDelivery s l f words i s.lanes[i]).2 = some .falseOnset) then { s.heat with
        issued := some ⟨.falseStart, s.trackTime⟩,
        pulseEnd := some (s.trackTime + BitVec.ofNat 32 s.settings.recallPulse) }
      else if (∃ i, (sampleDelivery s l f words i s.lanes[i]).2 = some .unsureLane) ∧ s.settings.unsureRecall = true then
        { s.heat with
          issued := some ⟨.equipment, s.trackTime⟩,
          pulseEnd := some (s.trackTime + BitVec.ofNat 32 s.settings.recallPulse) }
      else s.heat := by
    rw [takeReports_heat, withLink_heat, withLink_settings, withLink_trackTime]
    simp only [hreported]
    rfl
  refine ⟨(s.withLink l ((s.link l).arrived s.settings l f words)).takeReports (sampleDelivery s l f words),
    exec_frameArrival_delivers hreset hf hdue, fun i => ?_, ?_, fun k => ?_, ?_, ?_, ?_, fun m hm => ?_, hheat, fun x => ?_,
    ?_, ?_, ?_⟩
  · have h := lanesAfter_getElem (s.withLink l ((s.link l).arrived s.settings l f words)) (sampleDelivery s l f words) i.val i.isLt
    rw [takeReports_lanes]
    rwa [withLink_lanes] at h
  · rw [takeReports_link, hsame]
    rfl
  · rw [takeReports_link, hsame]
    exact arrived_prevSeq s.settings (s.link l) k
  · rw [takeReports_link, hsame]
    exact congrArg (fun n => min ((s.link l).checkFailures + n) 65535) (allSlots_countP _)
  · rw [takeReports_link, hsame]
    exact congrArg (fun n => min ((s.link l).seqFaults + n) 65535) (allSlots_countP _)
  · rw [takeReports_link, hsame]
    rfl
  · rw [takeReports_link, hother m hm]
  · rw [takeReports_raised, hreported, hreported, hreported, withLink_notices, withLink_heat]
  · rw [takeReports_levels, withLink_notices]
  · rw [takeReports_ceiling, withLink_notices]
  · have htold := takeReports_rest (s.withLink l ((s.link l).arrived s.settings l f words)) (sampleDelivery s l f words)
    rw [withLink_lanes, withLink_heat, withLink_notices] at htold
    exact (congrArg (fun t => { t with linkA := s.linkA, linkB := s.linkB }) htold).trans hrest

end Sys2Proof.Proofs
end

section
/-! PROOFS. The form of the records as the port sends them; the statement O13. -/

namespace Sys2Proof.Proofs

open Sys2Proof.Machine Sys2Proof.Laws

/-! ### Numbers in bytes -/

theorem wordBytes_word (n : Nat) : BitVec.ofNat 8 (n / 256) ++ BitVec.ofNat 8 n = BitVec.ofNat 16 n := by
  apply BitVec.eq_of_toNat_eq
  rw [BitVec.toNat_append, BitVec.toNat_ofNat, BitVec.toNat_ofNat, BitVec.toNat_ofNat, ← Nat.shiftLeft_add_eq_or_of_lt
    (Nat.mod_lt _ (by decide)), Nat.shiftLeft_eq]
  omega

theorem rtBytes_word (x : Int) : ∃ a b, rtBytes x = [a, b] ∧ a ++ b = BitVec.ofInt 16 x :=
  ⟨_, _, rfl, (BitVec.extractLsb'_append_extractLsb'_eq_extractLsb' (by decide)).trans BitVec.extractLsb'_eq_self⟩

theorem stampBytes_word (t : Stamp) : ∃ a b c d, stampBytes t = [a, b, c, d] ∧ a ++ b ++ c ++ d = t := by
  refine ⟨_, _, _, _, rfl, ?_⟩
  rw [BitVec.extractLsb'_append_extractLsb'_eq_extractLsb' (by decide),
    BitVec.extractLsb'_append_extractLsb'_eq_extractLsb' (by decide),
    BitVec.extractLsb'_append_extractLsb'_eq_extractLsb' (by decide)]
  exact BitVec.extractLsb'_eq_self

theorem rtBytes_inj {x y : Int} (hx : rtInRange x) (hy : rtInRange y) (h : rtBytes x = rtBytes y) : x = y := by
  obtain ⟨a, b, hab, hxw⟩ := rtBytes_word x
  obtain ⟨c, d, hcd, hyw⟩ := rtBytes_word y
  obtain ⟨rfl, rfl⟩ : a = c ∧ b = d := by simpa using hab.symm.trans (h.trans hcd)
  have hint := congrArg BitVec.toInt (hxw.symm.trans hyw)
  rw [BitVec.toInt_ofInt, BitVec.toInt_ofInt, Int.bmod_def, Int.bmod_def] at hint
  unfold rtInRange at hx hy
  omega

/-! ### Masks -/

/-- A sum of flags of the weights 1, 2, 4 and so on is the number of those bits. -/
theorem flags_sum {n : Nat} (b : Fin n → Bool) : ((List.finRange n).map fun k => flag (2 ^ k.val) (b k)).sum = Nat.ofBits b := by
  induction n with
  | zero => rfl
  | succ n ih =>
    have hdouble : ∀ k : Fin n, flag (2 ^ (k.val + 1)) (b k.succ) = 2 * flag (2 ^ k.val) ((b ∘ Fin.succ) k) := fun k => by
      unfold flag
      rw [Function.comp_apply, pow_succ, mul_comm]
      split <;> rfl
    rw [List.finRange_succ, List.map_cons, List.map_map, List.sum_cons, Nat.ofBits_succ, ← ih (b ∘ Fin.succ),
      ← List.sum_map_mul_left, add_comm]
    congr 1
    · exact congrArg List.sum (List.map_congr_left fun k _ => hdouble k)
    · cases b 0 <;> rfl

theorem laneMask_eq (lanes : List LaneNo) : laneMask lanes = Nat.ofBits fun i : Fin 10 => lanes.contains i :=
  flags_sum (n := 10) fun i => lanes.contains i

theorem mem_iff_laneMask (lanes : List LaneNo) (i : LaneNo) : i ∈ lanes ↔ (laneMask lanes).testBit i.val = true := by
  rw [laneMask_eq, Nat.testBit_ofBits_lt _ _ i.isLt]
  exact List.contains_iff_mem.symm

theorem laneMask_lt (lanes : List LaneNo) : laneMask lanes < 0x0400 := by
  rw [laneMask_eq]
  exact Nat.ofBits_lt_two_pow _

/-- The pending mask of READ NOTICES as bits (12.3). -/
theorem pendingMask_eq (s : State) : (allSources.map fun x => flag (2 ^ x.index.val) (s.noticePending x)).sum =
    Nat.ofBits fun k : Fin 14 => s.noticePending allSources[k] :=
  flags_sum (n := 14) fun k => s.noticePending allSources[k]

theorem allSources_index (x : NoticeSource) : allSources[x.index] = x := by
  cases x <;> rfl

theorem noticeBytes_mask (s : State) : ∃ (a b : Byte) (mask : BitVec 16), s.noticeBytes.take 2 = [a, b] ∧ mask = a ++ b ∧
    (∀ x : NoticeSource, mask.getLsbD x.index.val = s.noticePending x) ∧ mask.getLsbD 14 = false ∧ mask.getLsbD 15 = false := by
  have hlt := Nat.ofBits_lt_two_pow fun k : Fin 14 => s.noticePending allSources[k]
  refine ⟨_, _, _, rfl, rfl, fun x => ?_, ?_, ?_⟩
  all_goals rw [pendingMask_eq, wordBytes_word, BitVec.getLsbD_ofNat]
  · have hi := x.index.isLt
    rw [Nat.testBit_ofBits_lt _ _ hi, decide_eq_true (by omega), Bool.true_and]
    exact congrArg s.noticePending (allSources_index x)
  · rw [Nat.testBit_lt_two_pow hlt, Bool.and_false]
  · rw [Nat.testBit_lt_two_pow (hlt.trans (by decide)), Bool.and_false]

/-! ### Records and their fields -/

@[simp] theorem wordBytes_length (n : Nat) : (wordBytes n).length = 2 := rfl
@[simp] theorem stampBytes_length (t : Stamp) : (stampBytes t).length = 4 := rfl
@[simp] theorem rtBytes_length (x : Int) : (rtBytes x).length = 2 := rfl

/-- An optional field has its length, present or absent (R194). -/
theorem optBytes_length {α : Type} {n : Nat} {f : α → List Byte} (hf : ∀ x, (f x).length = n) (o : Option α) :
    (optBytes n f o).length = n := by
  cases o with
  | none => exact List.length_replicate
  | some x => exact hf x

@[simp] theorem chargeBytes_length (c : Charge) : (chargeBytes c).length = 4 := by
  simp [chargeBytes, optBytes_length rtBytes_length]

@[simp] theorem optStamp_length (o : Option Stamp) : (optBytes 4 stampBytes o).length = 4 := optBytes_length stampBytes_length o
@[simp] theorem optRt_length (o : Option Int) : (optBytes 2 rtBytes o).length = 2 := optBytes_length rtBytes_length o
@[simp] theorem optCharge_length (o : Option Charge) : (optBytes 4 chargeBytes o).length = 4 :=
  optBytes_length chargeBytes_length o
@[simp] theorem optWord_length {α : Type} (f : α → Nat) (o : Option α) : (optBytes 2 (fun x => wordBytes (f x)) o).length = 2 :=
  optBytes_length (fun x => wordBytes_length (f x)) o

@[simp] theorem optIssued_length (o : Option RecallRecord) :
    (optBytes 5 (fun r => r.cause.value :: stampBytes r.stamp) o).length = 5 :=
  optBytes_length (fun r => by simp) o

/-- Two optional fields that are present together are one. -/
theorem optBytes_append {α : Type} (m n : Nat) (f g : α → List Byte) (o : Option α) :
    optBytes m f o ++ optBytes n g o = optBytes (m + n) (fun x => f x ++ g x) o := by
  cases o with
  | none => exact List.replicate_append_replicate
  | some x => rfl

/-- A field of a record stands after the fields before it. -/
theorem field_of_parts {p : List Byte} {n : Nat} (hn : p.length = n) : ∀ {parts : List (List Byte)} {k a : Nat},
    parts[k]? = some p → ((parts.take k).map List.length).sum = a → (parts.flatten.drop a).take n = p
  | [], _, _, h, _ => by simp at h
  | q :: rest, 0, _, h, ha => by
    obtain rfl : q = p := by simpa using h
    rw [← ha]
    exact List.take_left' hn
  | q :: rest, k + 1, _, h, ha => by
    rw [← ha, List.take_succ_cons, List.map_cons, List.sum_cons, List.flatten_cons, ← List.drop_drop, List.drop_left]
    exact field_of_parts hn (by simpa using h) rfl

/-- The fields of an entered lane's record (Table 12-5). -/
theorem laneBytes_parts {l : Lane} {e : Entry} (he : l.entry = some e) (i : LaneNo) : laneBytes i l =
    [[byteOf (laneNumber i),
        byteOf (1 + (if l.baseline.isSome then 2 else 0) + (if l.onset.isSome then 4 else 0) + (if l.rt.isSome then 8 else 0) +
          (if e.result.isSome then 16 else 0)),
        l.phase.value, e.standing.value],
      [byteOf (e.bib / 256), byteOf e.bib],
      optBytes 5 (fun b => [byteOf (b.value / 256), byteOf b.value, b.kind.value, byteOf (b.level / 256), byteOf b.level])
        l.baseline,
      optBytes 4 stampBytes l.onset, optBytes 2 rtBytes l.rt,
      optBytes 4 (fun r => [r.kind.value, byteOf ((if r.kind.rt.isSome then 1 else 0) + (if r.provisional then 2 else 0))] ++
        optBytes 2 rtBytes r.kind.rt) e.result,
      [byteOf e.charges.length], optBytes 4 chargeBytes e.charges[0]?, optBytes 4 chargeBytes e.charges[1]?].flatten := by
  have hresult : optBytes 2 rtBytes (e.result.bind fun r => r.kind.rt) = optBytes 2 (fun r => optBytes 2 rtBytes r.kind.rt) e.result := by
    cases e.result <;> rfl
  simp only [laneBytes, he, Option.bind_some, Option.map_some, Option.getD_some, hresult, List.append_assoc, optBytes_append,
    List.flatten_cons, List.flatten_nil, List.append_nil]
  rfl

/-- The fields of the heat record (Table 12-6). -/
theorem heatBytes_parts (h : Heat) : heatBytes h =
    [[h.state.value, byteOf h.attempt,
        byteOf ((if h.id.isSome then 1 else 0) + (if h.gunStamp.isSome then 2 else 0) + (if h.issued.isSome then 4 else 0) +
          (if h.warning.isSome then 8 else 0))],
      optBytes 3 (fun d => [byteOf (d.number / 256), byteOf d.number, d.policy.value]) h.id,
      optBytes 4 stampBytes h.gunStamp, optBytes 5 (fun r => r.cause.value :: stampBytes r.stamp) h.issued,
      optBytes 4 (fun w => [byteOf w.attempt, if w.final then 1 else 0, byteOf (laneMask w.culprits / 256),
        byteOf (laneMask w.culprits)]) h.warning].flatten := by
  have hfinal : ∀ w : FieldWarning, byteOf (flag 1 w.final) = if w.final then 1 else 0 := fun w => by
    cases w.final <;> rfl
  simp only [heatBytes, hfinal, List.append_assoc, optBytes_append, List.flatten_cons, List.flatten_nil, List.append_nil]
  rfl

/-- The fields of the attempt report (Table 12-7). -/
theorem reportBytes_parts (r : Report) : reportBytes r =
    [[byteOf r.attempt, r.outcome.value,
        byteOf ((if r.gunStamp.isSome then 1 else 0) + (if r.recallCause.isSome then 2 else 0) +
          (if r.earliest.isSome then 4 else 0))],
      optBytes 4 stampBytes r.gunStamp, optBytes 1 (fun c => [c.value]) r.recallCause,
      [byteOf (laneMask r.culprits / 256), byteOf (laneMask r.culprits), byteOf (laneMask r.provoked / 256),
        byteOf (laneMask r.provoked), byteOf (laneMask r.unsure / 256), byteOf (laneMask r.unsure),
        byteOf (laneMask r.movers / 256), byteOf (laneMask r.movers)],
      optBytes 2 rtBytes r.earliest].flatten := by
  simp only [reportBytes, List.append_assoc, List.flatten_cons, List.flatten_nil, List.append_nil]
  rfl

/-! ### The lengths of the records -/

theorem heatBytes_length (h : Heat) : (heatBytes h).length = 19 := by
  simp [heatBytes_parts, optBytes_length]

theorem reportBytes_length (r : Report) : (reportBytes r).length = 18 := by
  simp [reportBytes_parts, optBytes_length]

theorem laneBytes_length (i : LaneNo) (l : Lane) : (laneBytes i l).length = 30 := by
  simp [laneBytes, optBytes_length]

theorem noticeBytes_length (s : State) : s.noticeBytes.length = 17 := by
  simp [State.noticeBytes, allSources]

/-! ### The fields of the records -/

/-- The flags and the RT of a charge entry, with cause and effect as propositions (12.3). -/
theorem chargeBytes_flags (c : Charge) : chargeBytes c = [byteOf c.attempt,
    byteOf ((if c.effect = .disqualify then 1 else 0) + (if c.cause = .referee then 2 else 0) + (if c.final then 4 else 0) +
      (if c.cause.rt.isSome then 8 else 0))] ++ optBytes 2 rtBytes c.cause.rt := by
  simp only [chargeBytes, flag, beq_iff_eq]

/-- Settles O13: each record is the concatenation of its fields, and a mask is a sum of distinct powers of two. -/
theorem recordsHaveFixedForm : Obligations.RecordsHaveFixedForm := by
  unfold Obligations.RecordsHaveFixedForm
  refine ⟨fun s => ⟨rfl, noticeBytes_length s⟩, heatBytes_length, reportBytes_length, laneBytes_length, fun _ => rfl,
    fun i l he hb ho hr hp => ?_, mem_iff_laneMask, laneMask_lt, by decide, by decide, by decide, fun x y => rtBytes_inj,
    fun n => BitVec.toNat_ofNat .., rtBytes_word, stampBytes_word, fun i l e he => ?_, fun h => ?_, fun r => ?_,
    fun s => ⟨noticeBytes_mask s, fun x => ?_, rfl⟩, fun _ => rfl, rfl, rfl, rfl, fun _ => rfl, rfl, rfl, rfl, rfl,
    fun _ _ => rfl, rfl, rfl⟩
  · simp only [laneBytes, he, hb, ho, hr, hp]
    rfl
  · intro f
    have hf : ∀ a n, f a n = ((laneBytes i l).drop a).take n := fun _ _ => rfl
    rw [laneBytes_parts he] at hf
    simp only [hf]
    refine ⟨field_of_parts (k := 0) (by simp) rfl (by simp), field_of_parts (k := 1) (by simp) rfl (by simp),
      (field_of_parts (k := 2) (by simp [optBytes_length]) rfl (by simp)).trans ?_,
      (field_of_parts (k := 3) (by simp) rfl (by simp [optBytes_length])).trans ?_,
      (field_of_parts (k := 4) (by simp) rfl (by simp [optBytes_length])).trans ?_,
      (field_of_parts (k := 5) (by simp [optBytes_length]) rfl (by simp [optBytes_length])).trans ?_,
      field_of_parts (k := 6) (by simp) rfl (by simp [optBytes_length]), fun k => ?_⟩
    · cases l.baseline <;> rfl
    · cases l.onset <;> rfl
    · cases l.rt <;> rfl
    · cases e.result with
      | none => rfl
      | some r =>
        simp only [optBytes]
        cases r.kind.rt <;> rfl
    · have hcharge : ∀ c : Charge, optBytes 4 chargeBytes (some c) = _ := chargeBytes_flags
      revert k
      refine Fin.forall_fin_two.2 ⟨(field_of_parts (k := 7) (by simp) rfl (by simp [optBytes_length])).trans ?_,
        (field_of_parts (k := 8) (by simp) rfl (by simp [optBytes_length])).trans ?_⟩
      all_goals
        simp only [Fin.val_zero, Fin.val_one]
        split
        · next hnone =>
          rw [hnone]
          rfl
        · next c hsome =>
          rw [hsome, hcharge]
          cases c.cause.rt <;> rfl
  · intro f
    have hf : ∀ a n, f a n = ((heatBytes h).drop a).take n := fun _ _ => rfl
    rw [heatBytes_parts] at hf
    simp only [hf]
    refine ⟨field_of_parts (k := 0) (by simp) rfl (by simp),
      (field_of_parts (k := 1) (by simp [optBytes_length]) rfl (by simp)).trans ?_,
      (field_of_parts (k := 2) (by simp) rfl (by simp [optBytes_length])).trans ?_,
      (field_of_parts (k := 3) (by simp) rfl (by simp [optBytes_length])).trans ?_,
      (field_of_parts (k := 4) (by simp [optBytes_length]) rfl (by simp [optBytes_length])).trans ?_⟩
    · cases h.id <;> rfl
    · cases h.gunStamp <;> rfl
    · cases h.issued <;> rfl
    · cases h.warning <;> rfl
  · intro f
    have hf : ∀ a n, f a n = ((reportBytes r).drop a).take n := fun _ _ => rfl
    rw [reportBytes_parts] at hf
    simp only [hf]
    refine ⟨field_of_parts (k := 0) (by simp) rfl (by simp), (field_of_parts (k := 1) (by simp) rfl (by simp)).trans ?_,
      (field_of_parts (k := 2) (by simp [optBytes_length]) rfl (by simp)).trans ?_,
      field_of_parts (k := 3) (by simp) rfl (by simp [optBytes_length]),
      (field_of_parts (k := 4) (by simp) rfl (by simp [optBytes_length])).trans ?_⟩
    · cases r.gunStamp <;> rfl
    · cases r.recallCause <;> rfl
    · cases r.earliest <;> rfl
  · cases x <;> rfl

end Sys2Proof.Proofs
end

section
/-! PROOFS. The bytes of the port commands and the pins of the port; the statements O51 and O60. -/

namespace Sys2Proof.Proofs

open Sys2Proof.Machine Sys2Proof.Laws

/-! ### Bytes and commands -/

theorem ofTwoBytes_twoBytes (w : BitVec 16) : ofTwoBytes (w.extractLsb' 8 8) (w.extractLsb' 0 8) = w :=
  (BitVec.extractLsb'_append_extractLsb'_eq_extractLsb' (by decide)).trans BitVec.extractLsb'_eq_self

theorem twoBytes_ofTwoBytes (hi lo : Byte) : twoBytes (ofTwoBytes hi lo) = [hi, lo] := by
  have hhi : (hi ++ lo).extractLsb' 8 8 = hi :=
    (BitVec.extractLsb'_append_eq_of_le (by decide)).trans BitVec.extractLsb'_eq_self
  have hlo : (hi ++ lo).extractLsb' 0 8 = lo :=
    (BitVec.extractLsb'_append_eq_of_add_le (by decide)).trans BitVec.extractLsb'_eq_self
  rw [twoBytes, ofTwoBytes, hhi, hlo]

theorem encodeCommand_eq_some {i : Instr} {bytes : List Byte} :
    encodeCommand i = some bytes ↔ ∃ code, i.code = some code ∧ bytes = code :: i.argumentBytes := by
  rw [encodeCommand, Option.map_eq_some_iff]
  exact exists_congr fun code => and_congr_right fun _ => eq_comm

/-- A command is decoded from its code and argument bytes (R174, R176). -/
theorem decodeCommand_encoded {wp : Bool} {i : Instr} {code : Byte} (hk : i.code = some code)
    (hwp : ∀ v, i = .saveProfile v → v = wp) : decodeCommand wp (code :: i.argumentBytes) = some i := by
  cases i
  case saveProfile v =>
    cases hk
    obtain rfl := hwp v rfl
    rfl
  case writeSetting k v =>
    cases hk
    exact congrArg (fun w => some (Instr.writeSetting k w)) (ofTwoBytes_twoBytes v)
  case openHeat n p =>
    cases hk
    exact congrArg (fun w => some (Instr.openHeat w p)) (ofTwoBytes_twoBytes n)
  case enterLane l b =>
    cases hk
    exact congrArg (fun w => some (Instr.enterLane l w)) (ofTwoBytes_twoBytes b)
  case findBib b =>
    cases hk
    exact congrArg (fun w => some (Instr.findBib w)) (ofTwoBytes_twoBytes b)
  all_goals cases hk <;> rfl

/-- One row of the decoder: its command encodes to the bytes, or a later row's does. -/
theorem decodeRow_encodes {p : Prop} [Decidable p] {i j : Instr} {o : Option Instr} {bytes : List Byte}
    (hi : p → encodeCommand i = some bytes) (ho : o = some j → encodeCommand j = some bytes)
    (h : (if p then some i else o) = some j) : encodeCommand j = some bytes := by
  by_cases hp : p
  · rw [if_pos hp] at h
    exact Option.some.inj h ▸ hi hp
  · rw [if_neg hp] at h
    exact ho h

/-- No other bytes decode to a command than those it is encoded to (R176). -/
theorem encodeCommand_decoded {wp : Bool} {bytes : List Byte} {i : Instr} (h : decodeCommand wp bytes = some i) :
    encodeCommand i = some bytes := by
  rcases bytes with _ | ⟨code, _ | ⟨x, _ | ⟨y, _ | ⟨z, _ | ⟨u, l⟩⟩⟩⟩⟩
  all_goals
    revert h
    repeat' refine decodeRow_encodes (fun hcode => by
      subst hcode
      simp [encodeCommand, Instr.code, Instr.argumentBytes, twoBytes_ofTwoBytes]) ?_
    intro h
    cases h

/-- Settles O51: each row of the decoder and the code and arguments of its command spell the same bytes. -/
theorem portCodecRoundTrip : Obligations.PortCodecRoundTrip := by
  unfold Obligations.PortCodecRoundTrip
  refine fun wp i bytes => ⟨fun h hwp => ?_, encodeCommand_decoded, fun h => ?_⟩
  · obtain ⟨code, hcode, rfl⟩ := encodeCommand_eq_some.1 h
    exact decodeCommand_encoded hcode hwp
  · obtain ⟨code, hcode, rfl⟩ := encodeCommand_eq_some.1 h
    exact ⟨code, _, rfl, hcode, argumentCount_code hcode⟩

/-! ### What stands on SDO -/

theorem byteSent_silent {p : Port} (h1 : p.phase ≠ .answering) (h2 : p.phase ≠ .streaming) (k : Nat) : p.byteSent k = 0 := by
  unfold Port.byteSent
  split
  · next hp _ => exact absurd hp h1
  · next hp _ => exact absurd hp h2
  · rfl

/-- While no command is answered, SDO holds zeros (R175). -/
theorem sdoBit_silent {p : Port} (h1 : p.phase ≠ .answering) (h2 : p.phase ≠ .streaming) (high : Bool) : p.sdoBit high = false := by
  unfold Port.sdoBit
  split
  · (repeat' split) <;> simp [byteSent_silent h1 h2]
  · rfl

theorem sdo_driven {s : State} (h : s.sdoDriven = true) : s.sdo = some (s.port.sdoBit s.sckHigh) := if_pos h

theorem sdo_undriven {s : State} (h : s.sdoDriven = false) : s.sdo = none := if_neg (by simp [h])

theorem sdo_silent {s : State} (hr : s.inReset = false) (h0 : s.port.phase ≠ .deselected) (h1 : s.port.phase ≠ .answering)
    (h2 : s.port.phase ≠ .streaming) : s.sdo = some false := by
  rw [sdo_driven ((sdoDriven_iff s).2 ⟨hr, h0⟩), sdoBit_silent h1 h2]

theorem sdoBit_low {p : Port} {n k : Nat} (hn : p.bitCount = some n) (hk : p.bytePos = some k) :
    p.sdoBit false = (p.byteSent k).getMsbD n := by
  simp only [Port.sdoBit, hn, hk, if_true]

/-- A bit sampled at a rising edge leaves the bit on SDO (R175). -/
theorem sdoBit_sample {p : Port} {n k : Nat} (sdi : Bool) (hn : p.bitCount = some n) (hk : p.bytePos = some k) (h7 : n ≤ 7) :
    (p.sample sdi n k).sdoBit true = p.sdoBit false := by
  rw [sdoBit_low hn hk]
  by_cases hlt : n < 7
  · simp [Port.sdoBit, Port.sample, hlt, Port.byteSent]
  · obtain rfl : n = 7 := by omega
    simp [Port.sdoBit, Port.sample, Port.byteSent]

/-- A command just taken still sends zeros in the byte position that took it (R175, R176). -/
theorem answered_sdo {k : Byte} {n : Nat} {o : Owned} (hr : o.1.inReset = false) (hhigh : o.1.sckHigh = true) :
    (State.answered k n o).sdo = some false := by
  have hdriven : (State.answered k n o).sdoDriven = true := by
    rw [sdoDriven_iff, answered_inReset, answered_port]
    exact ⟨hr, nofun⟩
  rw [sdo_driven hdriven, answered_sckHigh, hhigh, answered_port]
  simp [Port.sdoBit, Port.answering, Port.byteSent]

/-- A byte that completes in Collecting leaves the bit on SDO: a zero (R175). -/
theorem byteReceived_sdo {s t : State} (hc : s.collecting = true) (hhigh : s.sckHigh = true) (hx : s.byteReceived = .next t) :
    t.sdo = some false := by
  obtain ⟨hr, hp⟩ := (collecting_iff s).1 hc
  unfold State.byteReceived at hx
  split at hx
  · next i hi =>
    obtain ⟨code, hcode⟩ := Option.isSome_iff_exists.1 (decodeCommand_code hi)
    obtain ⟨o, ho, hleaves⟩ := exec_taken hcode hc
    cases ho.symm.trans hx
    exact answered_sdo (hleaves.inReset.trans hr) (hleaves.sckHigh.trans hhigh)
  · split at hx
    · cases hx
      exact sdo_silent hr (by simp [hp]) (by simp [hp]) (by simp [hp])
    · split at hx
      · cases hx
        exact sdo_silent hr (by simp [hp]) (by simp [hp]) (by simp [hp])
      · simp only [exec, execUnknownCommandCode] at hx
        split at hx <;> cases hx
        · exact sdo_silent hr nofun nofun nofun
        · exact sdo_silent hr (by simp [hp]) (by simp [hp]) (by simp [hp])

/-- A rising edge of SCK never moves SDO (R175). -/
theorem sckRise_keeps_sdo {s t : State} {sdi : Bool} (h : s.PortLaw) (hx : s.takeEdge (.sckRise sdi) = .next t) :
    t.sdo = s.sdo := by
  by_cases hhigh : s.sckHigh = true
  · cases ((takeEdge_level s sdi).1 hhigh).symm.trans hx
    rfl
  · have hlow : s.sckHigh = false := by simpa using hhigh
    by_cases hdriven : s.sdoDriven = true
    · obtain ⟨hr, hp⟩ := (sdoDriven_iff s).1 hdriven
      obtain ⟨n, hn⟩ := Option.ne_none_iff_exists'.1 (mt h.deselected.2 hp)
      obtain ⟨k, hk⟩ := Option.isSome_iff_exists.1 (h.position.symm.trans (by rw [hn]; rfl))
      have h7 := h.bits n hn
      by_cases hbyte : n < 7 ∨ s.port.phase ≠ .collecting
      · cases (takeEdge_rise s sdi hdriven hlow hn hk hbyte).symm.trans hx
        have hdriven' : State.sdoDriven { s with sckHigh := true, port := s.port.sample sdi n k } = true := hdriven
        rw [sdo_driven hdriven, sdo_driven hdriven', hlow]
        exact congrArg some (sdoBit_sample sdi hn hk h7)
      · obtain ⟨hge, hcollecting⟩ : ¬ n < 7 ∧ s.port.phase = .collecting := by simpa using hbyte
        obtain rfl : n = 7 := by omega
        have hc := (collecting_iff s).2 ⟨hr, hcollecting⟩
        rw [takeEdge_byte s sdi hc hlow hn hk] at hx
        rw [byteReceived_sdo (s := { s with sckHigh := true, port := s.port.sample sdi 7 k }) hc rfl hx,
          sdo_silent hr hp (by simp [hcollecting]) (by simp [hcollecting])]
    · have hidle : s.sdoDriven = false := by simpa using hdriven
      cases (takeEdge_idle s sdi hidle hlow).symm.trans hx
      exact (sdo_undriven (s := { s with sckHigh := true }) hidle).trans (sdo_undriven hidle).symm

/-! ### Falling edges between two bytes of a response -/

section ByteBegins

variable {s : State} {r : Response} {k : Nat}

theorem byteBegins_armed (ha : s.port.softArmed = true) (hk : k = r.resultPos + 1) :
    s.byteBegins r k = exec (.softResetAction .resultByteEnd) s := if_pos ⟨ha, hk⟩

theorem byteBegins_streaming (ha : ¬ (s.port.softArmed = true ∧ k = r.resultPos + 1)) (hs : r.stream.isSome = true)
    (hk : k = r.copyPos) : s.byteBegins r k = .next (s.withPort { s.port with phase := .streaming }) :=
  (if_neg ha).trans (if_pos ⟨hs, hk⟩)

theorem byteBegins_copy (ha : ¬ (s.port.softArmed = true ∧ k = r.resultPos + 1)) (hs : r.stream.isSome = true)
    (hk : k = r.copyPos + r.copy.length) (hne : r.copy ≠ []) : s.byteBegins r k = exec .streamRecordCopy s := by
  have hpos := List.length_pos_iff.2 hne
  exact (if_neg ha).trans ((if_neg fun h => by omega).trans (if_pos ⟨hs, hk⟩))

theorem byteBegins_nothing (ha : ¬ (s.port.softArmed = true ∧ k = r.resultPos + 1))
    (h : r.stream = none ∨ k ≠ r.copyPos ∧ k ≠ r.copyPos + r.copy.length) : s.byteBegins r k = .next s := by
  have hno : ∀ m, k = m → (m = r.copyPos ∨ m = r.copyPos + r.copy.length) → ¬ r.stream.isSome = true := by
    rintro m rfl hm hs
    rcases h with hnone | ⟨h1, h2⟩
    · simp [hnone] at hs
    · exact hm.elim h1 h2
  exact (if_neg ha).trans ((if_neg fun h => hno k rfl (.inl h.2) h.1).trans (if_neg fun h => hno k rfl (.inr h.2) h.1))

end ByteBegins

/-! ### Whole commands -/

/-- A port that has received nothing of a command yet. -/
theorem collected_nil {s : State} (h : s.PortLaw) (hc : s.collecting = true) (hlow : s.sckHigh = false)
    (hn : s.port.bitCount = some 0) (hk : s.port.bytePos = some 0) :
    s.port.code = none ∧ s.port.argsReceived = none ∧ s.port.response = none ∧
      collected s [] false (some 0) s.port.shift = s := by
  have hp := ((collecting_iff s).1 hc).2
  have hresponse : s.port.response = none := by
    rw [← Option.not_isSome_iff_eq_none, h.response, hp]
    exact fun hphase => hphase.elim nofun nofun
  rcases h.collecting hp with ⟨-, hcode, hargs⟩ | ⟨_, args, _, _, _, _, _, hpos⟩
  · refine ⟨hcode, hargs, hresponse, ?_⟩
    unfold collected
    rw [← hlow, ← hn]
    have hport : ({ s.port with
        bitCount := s.port.bitCount, bytePos := some 0, code := none, argsReceived := none, shift := s.port.shift } : Port) =
        s.port := by
      rw [← hk, ← hcode, ← hargs]
    exact congrArg (fun p => { s with port := p }) hport
  · exact absurd (hk.symm.trans hpos) (by simp)

/-- Settles O60: single edges first, then what rising edges leave on SDO, then the bytes of whole commands. -/
theorem portPins : Obligations.PortPins := by
  unfold Obligations.PortPins
  refine ⟨fun s sdi => ⟨rfl, ?_, fun _ => rfl, (takeEdge_level s sdi).1, (takeEdge_level s sdi).2, fun h => ?_⟩,
    fun s sdi n k hr hp hlow hn hk => ?_, fun s t sdi => sckRise_keeps_sdo, fun s u k hr hp hhigh hk hu => ?_,
    fun x => by rw [byteEdges, byteBits, List.flatMap_map],
    fun i bytes s hbytes hwp h hc hlow hn hk => ?_, fun code s hcode h hc hlow hn hk => ?_⟩
  · simp only [State.takeEdge]
    split <;> rfl
  · have hidle : s.sdoDriven = false := by
      rw [← Bool.not_eq_true, sdoDriven_iff]
      rintro ⟨hr, hp⟩
      exact h.elim (fun h => absurd (hr.symm.trans h) (by decide)) hp
    exact ⟨takeEdge_idle s sdi hidle, fun hhigh => takeEdge_fall s hhigh (.inl hidle), sdo_undriven hidle⟩
  · have hdriven := (sdoDriven_iff s).2 ⟨hr, hp⟩
    refine ⟨by rw [sdo_driven hdriven, hlow, sdoBit_low hn hk], fun h => ?_⟩
    rw [takeEdge_rise s sdi hdriven hlow hn hk (h.imp_right And.right)]
    rcases h with hlt | ⟨rfl, -⟩
    · simp [Port.sample, hlt, hlt.ne]
    · simp [Port.sample]
  · have hdriven := (sdoDriven_iff s).2 ⟨hr, hp⟩
    refine ⟨fun h => (takeEdge_fall s hhigh (.inr h)).trans (by rw [hu]), fun r hresponse hn => ?_⟩
    have hport : u.port = s.port := by rw [hu]
    rw [takeEdge_begin s hhigh hdriven hresponse hn hk, ← hu]
    have hnot : s.port.softArmed = false ∨ k ≠ r.resultPos + 1 → ¬ (u.port.softArmed = true ∧ k = r.resultPos + 1) := by
      rintro h ⟨ha, hpos⟩
      rw [hport] at ha
      exact h.elim (fun hf => absurd (ha.symm.trans hf) (by decide)) fun hne => hne hpos
    refine ⟨fun ha hpos => byteBegins_armed (by rw [hport, ha]) hpos, fun h hs => ⟨fun hpos => ?_, fun hpos hne => ?_,
      fun h1 h2 => ?_⟩, fun h hs => byteBegins_nothing (hnot h) (.inl hs)⟩
    · rw [byteBegins_streaming (hnot h) hs hpos, hport]
      rfl
    · exact byteBegins_copy (hnot h) hs hpos hne
    · exact byteBegins_nothing (hnot h) (.inr ⟨h1, h2⟩)
  · obtain ⟨code, hcode, rfl⟩ := encodeCommand_eq_some.1 hbytes
    obtain ⟨-, -, hresponse, hnil⟩ := collected_nil h hc hlow hn hk
    have hprefixes := encode_keepsPrefixes (wp := s.profileWp) hbytes
    refine ⟨?_, fun m hm => ?_⟩
    · obtain ⟨l, x, -, htaken⟩ := collected_command s hc hresponse (code :: i.argumentBytes) [] s.port.shift nofun hprefixes
        (decodeCommand_encoded hcode hwp)
      rw [hnil] at htaken
      exact ⟨(completing s l x).port, htaken, rfl⟩
    · obtain ⟨l, high, b, x, hcut⟩ := collected_cut s hc hresponse (code :: i.argumentBytes) [] s.port.shift m hprefixes hm
      rw [hnil] at hcut
      exact ⟨_, hcut, ((collecting_iff s).1 hc).2, rfl⟩
  · obtain ⟨hnone, hargs, -, -⟩ := collected_nil h hc hlow hn hk
    have hcount := argumentCount_none hcode
    have hdecode : decodeCommand s.profileWp [code] = none := by
      by_contra hd
      obtain ⟨i, hi⟩ := Option.ne_none_iff_exists'.1 hd
      exact absurd (hcount.symm.trans (decodeCommand_count hi)) nofun
    have hport : completing s [] code = { s with
        sckHigh := true, port := { s.port with bytePos := some 1, shift := code } } := by
      simp [completing, hn, hnone, hargs]
    rw [takeEdges_byte s code hc hlow hn hk, ← hport]
    refine (congrArg State.byteReceived ?_).trans (byteReceived_unknown s hdecode hcount)
    simp [completing, hnone, hargs]

end Sys2Proof.Proofs
end
